-- ==== Sys2Proof/Word.lean ====
section
/-! DEFINITION. The bit-vector types of FSCORE (spec/00_scope.md R10, R11). -/

namespace Sys2Proof

/-- A byte (R11). -/
abbrev Byte := BitVec 8

/-- A register value or a bus word, 32 bits (R10). -/
abbrev Word := BitVec 32

/-- A byte offset into the 4096-byte register window (R10, R100). -/
abbrev Offset := BitVec 12

end Sys2Proof
end

