-- ==== Sys2Proof/Syntax.lean ====
section
/-! DEFINITION. What a host can do to FSCORE: the rows of spec/opcode_table.json, and the two encoded forms they have
(spec/30_encoding.md: CMDW command words, R140; MMIO accesses, R151). -/

namespace Sys2Proof

/-- The direction of a register access, with a write's data word (30_encoding R151). -/
inductive Access where
  | read
  | write (v : Word)
  deriving DecidableEq, Repr

/-- The size of a host access; only 32 bits is legal (20_memory R101). -/
inductive AccessSize where
  | bits8
  | bits16
  | bits32
  | bits64
  deriving DecidableEq, Repr

/-- A host access to the register window, as the bus presents it (R100, R101, R151). -/
structure HostAccess where
  offset : Offset
  size : AccessSize
  access : Access
  deriving DecidableEq, Repr

/-- An instruction in encoded form: a command word (format CMDW, a write of that word to CMD; DESIGN CHOICE, log 10) or
a register access (format MMIO). -/
inductive Code where
  | cmdw (w : Word)
  | mmio (a : HostAccess)
  deriving DecidableEq, Repr

/-- The ten opcodes of 30_encoding R143. -/
inductive Opcode where
  | nop
  | crcInit
  | crcUpdBit
  | crcUpdTbl
  | tblBuild
  | crcCheck
  | sync
  | decode
  | frame
  | decodeBuf
  deriving DecidableEq, Repr

/-- What a command word says (30_encoding R147): one of the ten commands, or illegal (R146). -/
inductive Command where
  | nop
  | crcInit
  | crcUpdBit (b : Byte)
  | crcUpdTbl (b : Byte)
  | tblBuild
  | crcCheck
  | sync
  | decode
  | frame
  | decodeBuf
  | illegal (w : Word)
  deriving DecidableEq, Repr

/-- The instructions: one constructor per row of spec/opcode_table.json, in the table's order. -/
inductive Instr where
  | nop
  | crcInit
  | crcUpdBit (b : Byte)
  | crcUpdTbl (b : Byte)
  | tblBuild
  | crcCheck
  | sync
  | decode
  | frame
  | decodeBuf
  | mmioCmd (a : Access)
  | mmioStatus (a : Access)
  | mmioCrcCfg (a : Access)
  | mmioCrcPoly (a : Access)
  | mmioCrcResult (a : Access)
  | mmioCrcCur (a : Access)
  | mmioCrcCurPoly (a : Access)
  | mmioChkPayload (a : Access)
  | mmioChkSum (a : Access)
  | mmioChkRem (a : Access)
  | mmioSyncCfg (a : Access)
  | mmioSensorNum (a : Access)
  | mmioHdrInfo (a : Access)
  | mmioCrcRx (a : Access)
  | mmioCrcCalc (a : Access)
  | mmioTblInfo (a : Access)
  | mmioTblPoly (a : Access)
  | mmioPktDiff0 (a : Access)
  | mmioPktDiff1 (a : Access)
  | mmioPktDiff2 (a : Access)
  | mmioPktDiff3 (a : Access)
  | mmioPktDiff4 (a : Access)
  | mmioPktDiff5 (a : Access)
  | mmioPktSum0 (a : Access)
  | mmioPktSum1 (a : Access)
  | mmioPktSum2 (a : Access)
  | mmioPktSum3 (a : Access)
  | mmioPktSum4 (a : Access)
  | mmioPktSum5 (a : Access)
  | mmioPktInfo (a : Access)
  | mmioPktDelay (a : Access)
  | mmioPktImuXy (a : Access)
  | mmioPktImuZ (a : Access)
  | mmioFbuf (k : BitVec 4) (a : Access)
  | mmioTable (i : BitVec 8) (a : Access)
  | mmioReserved (o : Offset) (a : Access)
  | illegalCmd (w : Word)
  deriving DecidableEq, Repr

/-- The registers of the window by name (10_state R33). -/
inductive Reg where
  | cmd
  | status
  | crcCfg
  | crcPoly
  | crcResult
  | crcCur
  | crcCurPoly
  | chkPayload
  | chkSum
  | chkRem
  | syncCfg
  | sensorNum
  | hdrInfo
  | crcRx
  | crcCalc
  | tblInfo
  | tblPoly
  | pktDiff (j : Fin 6)
  | pktSum (j : Fin 6)
  | pktInfo
  | pktDelay
  | pktImuXy
  | pktImuZ
  | fbuf (k : Fin 13)
  | table (i : BitVec 8)
  deriving DecidableEq, Repr

end Sys2Proof
end

