-- ==== Sys2Proof/WellFormed.lean ====
section
/-! DEFINITION. Which terms of Instr are instructions: the operands the encodings of spec/30_encoding.md admit. -/

namespace Sys2Proof

/-- The illegal command words of 30_encoding R146. -/
def illegalWord (w : Word) : Bool :=
  let opc := w.extractLsb' 0 8
  let imm := w.extractLsb' 8 8
  let rsv := w.extractLsb' 16 16
  rsv != 0 || decide (0x0A ≤ opc.toNat) || (imm != 0 && opc != 0x02 && opc != 0x03)

/-- The aligned offsets of the window that hold no register (10_state R33, 20_memory R103). -/
def reservedOffset (o : Offset) : Bool :=
  let n := o.toNat
  n % 4 == 0 &&
    ((0x044 ≤ n && n ≤ 0x05C) || (0x0A0 ≤ n && n ≤ 0x0FC) || (0x134 ≤ n && n ≤ 0x3FC) || 0x800 ≤ n)

/-- The instructions an encoding can express: an FBUF word index is at most 12 (R66), a reserved offset is one (R103),
and ILLEGAL_CMD holds an illegal word (R146). -/
def Instr.wellFormed : Instr → Bool
  | .nop | .crcInit | .crcUpdBit _ | .crcUpdTbl _ | .tblBuild | .crcCheck | .sync | .decode | .frame | .decodeBuf => true
  | .mmioCmd _ | .mmioStatus _ | .mmioCrcCfg _ | .mmioCrcPoly _ | .mmioCrcResult _ => true
  | .mmioCrcCur _ | .mmioCrcCurPoly _ | .mmioChkPayload _ | .mmioChkSum _ | .mmioChkRem _ => true
  | .mmioSyncCfg _ | .mmioSensorNum _ | .mmioHdrInfo _ | .mmioCrcRx _ | .mmioCrcCalc _ => true
  | .mmioTblInfo _ | .mmioTblPoly _ | .mmioPktDiff0 _ | .mmioPktDiff1 _ | .mmioPktDiff2 _ => true
  | .mmioPktDiff3 _ | .mmioPktDiff4 _ | .mmioPktDiff5 _ | .mmioPktSum0 _ | .mmioPktSum1 _ => true
  | .mmioPktSum2 _ | .mmioPktSum3 _ | .mmioPktSum4 _ | .mmioPktSum5 _ | .mmioPktInfo _ => true
  | .mmioPktDelay _ | .mmioPktImuXy _ | .mmioPktImuZ _ => true
  | .mmioFbuf k _ => k.toNat ≤ 12
  | .mmioTable _ _ => true
  | .mmioReserved o _ => reservedOffset o
  | .illegalCmd w => illegalWord w

end Sys2Proof
end

