-- ==== Sys2Proof/Decode.lean ====
section
/-! DEFINITION. The decoder of host accesses (command words: spec/30_encoding.md R140 to R147; register offsets:
spec/10_state.md R33), total, and the encoder written from the same tables. -/

namespace Sys2Proof

/-! ### Command words -/

/-- OPC, bits [7:0] of a command word (R140). -/
def opcField (w : Word) : BitVec 8 := w.extractLsb' 0 8
/-- IMM8, bits [15:8] of a command word (R140). -/
def immField (w : Word) : Byte := w.extractLsb' 8 8
/-- RSV, bits [31:16] of a command word (R140). -/
def rsvField (w : Word) : BitVec 16 := w.extractLsb' 16 16

/-- The numbers of the opcode map (R143). -/
def Opcode.number : Opcode → BitVec 8
  | .nop => 0x00
  | .crcInit => 0x01
  | .crcUpdBit => 0x02
  | .crcUpdTbl => 0x03
  | .tblBuild => 0x04
  | .crcCheck => 0x05
  | .sync => 0x06
  | .decode => 0x07
  | .frame => 0x08
  | .decodeBuf => 0x09

/-- The opcode with a number of the map (R143). -/
def opcodeOf (n : BitVec 8) : Option Opcode :=
  match n.toNat with
  | 0x00 => some .nop
  | 0x01 => some .crcInit
  | 0x02 => some .crcUpdBit
  | 0x03 => some .crcUpdTbl
  | 0x04 => some .tblBuild
  | 0x05 => some .crcCheck
  | 0x06 => some .sync
  | 0x07 => some .decode
  | 0x08 => some .frame
  | 0x09 => some .decodeBuf
  | _ => none

/-- The command of an opcode whose IMM8 is imm, `none` where the opcode takes no operand and imm is not 0 (R142). -/
def commandOf (op : Opcode) (imm : Byte) : Option Command :=
  match op with
  | .crcUpdBit => some (.crcUpdBit imm)
  | .crcUpdTbl => some (.crcUpdTbl imm)
  | .nop => if imm = 0 then some .nop else none
  | .crcInit => if imm = 0 then some .crcInit else none
  | .tblBuild => if imm = 0 then some .tblBuild else none
  | .crcCheck => if imm = 0 then some .crcCheck else none
  | .sync => if imm = 0 then some .sync else none
  | .decode => if imm = 0 then some .decode else none
  | .frame => if imm = 0 then some .frame else none
  | .decodeBuf => if imm = 0 then some .decodeBuf else none

/-- Decoding a command word, in the order of 30_encoding R145: RSV, then OPC, then IMM8. -/
def decodeCommand (w : Word) : Command :=
  if rsvField w ≠ 0 then .illegal w
  else
    match opcodeOf (opcField w) with
    | none => .illegal w
    | some op => (commandOf op (immField w)).getD (.illegal w)

/-- The instruction a command stands for. -/
def Command.toInstr : Command → Instr
  | .nop => .nop
  | .crcInit => .crcInit
  | .crcUpdBit b => .crcUpdBit b
  | .crcUpdTbl b => .crcUpdTbl b
  | .tblBuild => .tblBuild
  | .crcCheck => .crcCheck
  | .sync => .sync
  | .decode => .decode
  | .frame => .frame
  | .decodeBuf => .decodeBuf
  | .illegal w => .illegalCmd w

/-- The command word of an opcode with IMM8 = b and RSV = 0 (R140, R154). -/
def commandWord (op : Opcode) (b : Byte) : Word := (0 : BitVec 16) ++ b ++ op.number

/-! ### Register accesses -/

/-- The registers at one fixed offset each (10_state R33). -/
def mmioRows : List (Offset × (Access → Instr)) :=
  [(0x000, .mmioCmd),
   (0x004, .mmioStatus),
   (0x008, .mmioCrcCfg),
   (0x00C, .mmioCrcPoly),
   (0x010, .mmioCrcResult),
   (0x014, .mmioCrcCur),
   (0x018, .mmioCrcCurPoly),
   (0x01C, .mmioChkPayload),
   (0x020, .mmioChkSum),
   (0x024, .mmioChkRem),
   (0x028, .mmioSyncCfg),
   (0x02C, .mmioSensorNum),
   (0x030, .mmioHdrInfo),
   (0x034, .mmioCrcRx),
   (0x038, .mmioCrcCalc),
   (0x03C, .mmioTblInfo),
   (0x040, .mmioTblPoly),
   (0x060, .mmioPktDiff0),
   (0x064, .mmioPktDiff1),
   (0x068, .mmioPktDiff2),
   (0x06C, .mmioPktDiff3),
   (0x070, .mmioPktDiff4),
   (0x074, .mmioPktDiff5),
   (0x078, .mmioPktSum0),
   (0x07C, .mmioPktSum1),
   (0x080, .mmioPktSum2),
   (0x084, .mmioPktSum3),
   (0x088, .mmioPktSum4),
   (0x08C, .mmioPktSum5),
   (0x090, .mmioPktInfo),
   (0x094, .mmioPktDelay),
   (0x098, .mmioPktImuXy),
   (0x09C, .mmioPktImuZ)]

/-- The offset decode of 10_state R33: a fixed register, an FBUF word, a TABLE entry, or reserved (20_memory R103). -/
def decodeOffset (o : Offset) (a : Access) : Instr :=
  match mmioRows.lookup o with
  | some row => row a
  | none =>
    if 0x100 ≤ o.toNat ∧ o.toNat ≤ 0x130 then .mmioFbuf (o.extractLsb' 2 4) a
    else if 0x400 ≤ o.toNat ∧ o.toNat ≤ 0x7FC then .mmioTable (o.extractLsb' 2 8) a
    else .mmioReserved o a

/-- Why an access is no instruction: the bus errors of 20_memory R101. -/
inductive DecodeError where
  | wrongSize
  | misaligned
  deriving DecidableEq, Repr

/-- Decoding any instruction: every command word has a meaning (R147); an access must be 32 bits wide and aligned
(R101). -/
def decode : Code → Except DecodeError Instr
  | .cmdw w => .ok (decodeCommand w).toInstr
  | .mmio a =>
    if a.size ≠ .bits32 then .error .wrongSize
    else if a.offset.toNat % 4 ≠ 0 then .error .misaligned
    else .ok (decodeOffset a.offset a.access)

/-- An aligned 32-bit access at an offset. -/
def mmioCode (o : Offset) (a : Access) : Code := .mmio { offset := o, size := .bits32, access := a }

/-- The encoded form of a well-formed instruction (R143, R154; 10_state R33). -/
def encode : Instr → Code
  | .nop => .cmdw (commandWord .nop 0)
  | .crcInit => .cmdw (commandWord .crcInit 0)
  | .crcUpdBit b => .cmdw (commandWord .crcUpdBit b)
  | .crcUpdTbl b => .cmdw (commandWord .crcUpdTbl b)
  | .tblBuild => .cmdw (commandWord .tblBuild 0)
  | .crcCheck => .cmdw (commandWord .crcCheck 0)
  | .sync => .cmdw (commandWord .sync 0)
  | .decode => .cmdw (commandWord .decode 0)
  | .frame => .cmdw (commandWord .frame 0)
  | .decodeBuf => .cmdw (commandWord .decodeBuf 0)
  | .mmioCmd a => mmioCode 0x000 a
  | .mmioStatus a => mmioCode 0x004 a
  | .mmioCrcCfg a => mmioCode 0x008 a
  | .mmioCrcPoly a => mmioCode 0x00C a
  | .mmioCrcResult a => mmioCode 0x010 a
  | .mmioCrcCur a => mmioCode 0x014 a
  | .mmioCrcCurPoly a => mmioCode 0x018 a
  | .mmioChkPayload a => mmioCode 0x01C a
  | .mmioChkSum a => mmioCode 0x020 a
  | .mmioChkRem a => mmioCode 0x024 a
  | .mmioSyncCfg a => mmioCode 0x028 a
  | .mmioSensorNum a => mmioCode 0x02C a
  | .mmioHdrInfo a => mmioCode 0x030 a
  | .mmioCrcRx a => mmioCode 0x034 a
  | .mmioCrcCalc a => mmioCode 0x038 a
  | .mmioTblInfo a => mmioCode 0x03C a
  | .mmioTblPoly a => mmioCode 0x040 a
  | .mmioPktDiff0 a => mmioCode 0x060 a
  | .mmioPktDiff1 a => mmioCode 0x064 a
  | .mmioPktDiff2 a => mmioCode 0x068 a
  | .mmioPktDiff3 a => mmioCode 0x06C a
  | .mmioPktDiff4 a => mmioCode 0x070 a
  | .mmioPktDiff5 a => mmioCode 0x074 a
  | .mmioPktSum0 a => mmioCode 0x078 a
  | .mmioPktSum1 a => mmioCode 0x07C a
  | .mmioPktSum2 a => mmioCode 0x080 a
  | .mmioPktSum3 a => mmioCode 0x084 a
  | .mmioPktSum4 a => mmioCode 0x088 a
  | .mmioPktSum5 a => mmioCode 0x08C a
  | .mmioPktInfo a => mmioCode 0x090 a
  | .mmioPktDelay a => mmioCode 0x094 a
  | .mmioPktImuXy a => mmioCode 0x098 a
  | .mmioPktImuZ a => mmioCode 0x09C a
  | .mmioFbuf k a => mmioCode (0x100 + 4 * k.setWidth 12) a
  | .mmioTable i a => mmioCode (0x400 + 4 * i.setWidth 12) a
  | .mmioReserved o a => mmioCode o a
  | .illegalCmd w => .cmdw w

/-- The offset of a register (10_state R33). -/
def Reg.offset : Reg → Offset
  | .cmd => 0x000
  | .status => 0x004
  | .crcCfg => 0x008
  | .crcPoly => 0x00C
  | .crcResult => 0x010
  | .crcCur => 0x014
  | .crcCurPoly => 0x018
  | .chkPayload => 0x01C
  | .chkSum => 0x020
  | .chkRem => 0x024
  | .syncCfg => 0x028
  | .sensorNum => 0x02C
  | .hdrInfo => 0x030
  | .crcRx => 0x034
  | .crcCalc => 0x038
  | .tblInfo => 0x03C
  | .tblPoly => 0x040
  | .pktDiff j => BitVec.ofNat 12 (0x060 + 4 * j.val)
  | .pktSum j => BitVec.ofNat 12 (0x078 + 4 * j.val)
  | .pktInfo => 0x090
  | .pktDelay => 0x094
  | .pktImuXy => 0x098
  | .pktImuZ => 0x09C
  | .fbuf k => BitVec.ofNat 12 (0x100 + 4 * k.val)
  | .table i => BitVec.ofNat 12 (0x400 + 4 * i.toNat)

/-! ### Words of the opcode table -/

/-- The instruction whose opcode-table bits are w. A row of at most 16 bits is an MMIO row: bits [11:0] are the offset,
and the direction and the data, which the table gives no bits, are those of bits that are 0: a read (log 8). A longer row
is a command word. -/
def tableCode (nbits w : Nat) : Option Code :=
  if nbits ≤ 16 then
    if w < 0x1000 then some (mmioCode (BitVec.ofNat 12 w) .read) else none
  else
    if w < 0x100000000 then some (.cmdw (BitVec.ofNat 32 w)) else none

/-- The instruction the decoder reads from a word of the opcode table. -/
def decodeTableWord (nbits w : Nat) : Option Instr :=
  match tableCode nbits w with
  | some c =>
    match decode c with
    | .ok i => some i
    | .error _ => none
  | none => none

end Sys2Proof
end

