-- ==== Sys2Proof/Config.lean ====
section
/-! DEFINITION. The build-time parameters of FSCORE (spec/00_scope.md R8) and the values the spec leaves open. -/

namespace Sys2Proof.Config

/-- The two readings of the long-division divisor (40_crc_engine R201). -/
inductive CheckVariant where
  | generator
  | literal
  deriving DecidableEq, Repr

/-- The parameters of R8, all but P_BASE. -/
structure Params where
  marker : Byte
  hdrWidth : Nat
  hdrPoly : Nat
  frameWidth : Nat
  framePoly : Nat
  bodyLen : Nat
  payloadLen : Nat
  scanReset : BitVec 8
  minWide : Nat
  maxWidth : Nat
  tblEntries : Nat
  hdrCheckVariant : CheckVariant
  deriving DecidableEq, Repr

/-- The values of FSCORE version 1 (R8, column "FSCORE value").
UNVERIFIED: the spec calls the source's literals unaudited (log 12); unsafe. -/
def fscore : Params where
  marker := 0xAA
  hdrWidth := 4
  hdrPoly := 0x9
  frameWidth := 32
  framePoly := 0x04C11DB7
  bodyLen := 51
  payloadLen := 47
  scanReset := 100
  minWide := 8
  maxWidth := 32
  tblEntries := 256
  hdrCheckVariant := .generator

/-- The page number of the register window: P_BASE / 4096, an OPEN parameter (R8, 20_memory R100).
DESIGN CHOICE: an uninterpreted constant (log 7); safe. -/
opaque basePage : Nat

/-- P_BASE, 4096-byte aligned by construction (R100). -/
def base : Nat := 4096 * basePage

/-- The n-th unspecified value a read of a running command's write set returns (10_state R72).
DESIGN CHOICE: uninterpreted (log 5); safe. -/
opaque busyRead : Nat → Word

end Sys2Proof.Config
end

