-- ==== Sys2Proof/Machine/Bits.lean ====
section
/-! DEFINITION. The bit-field, sign-extension and byte-order functions of spec/00_scope.md R12, R13. -/

namespace Sys2Proof.Machine

open Sys2Proof

/-- `LE16` (R13). -/
def le16 (b0 b1 : Byte) : BitVec 16 := b1 ++ b0

/-- `LE24` (R13). -/
def le24 (b0 b1 b2 : Byte) : BitVec 24 := b2 ++ b1 ++ b0

/-- `LE32` (R13). -/
def le32 (b0 b1 b2 b3 : Byte) : Word := b3 ++ b2 ++ b1 ++ b0

/-- `sext_32` of a 24-bit value (R13). -/
def sext32 (v : BitVec 24) : Word := v.signExtend 32

/-- Byte j of a word, bits [8j+7:8j] (20_memory R105). -/
def byteOf (w : Word) (j : Nat) : Byte := w.extractLsb' (8 * j) 8

/-- The big-endian bytes of a word, the `BE` of 40_crc_engine R203. -/
def beBytes (w : Word) : List Byte := [byteOf w 3, byteOf w 2, byteOf w 1, byteOf w 0]

/-- `mask(W)` (R12). -/
def mask (W : Nat) : Nat := 2 ^ W - 1

/-- `bitlen(v)` (R12). -/
def bitLen (v : Nat) : Nat := if v = 0 then 0 else Nat.log2 v + 1

end Sys2Proof.Machine
end

