-- ==== Sys2Proof/Machine/Crc.lean ====
section
/-! DEFINITION. The CRC engine's functions (spec/40_crc_engine.md R170 to R175, R190) and the long division (R200 to
R202), on unbounded integers as the spec's pseudocode has them (00_scope R11, R12). -/

namespace Sys2Proof.Machine

open Sys2Proof

/-! ### Register form -/

/-- `CfgLegal(W, P)` (R170). -/
def cfgLegal (W P : Nat) : Bool :=
  (W == 4 || (Config.fscore.minWide ≤ W && W ≤ Config.fscore.maxWidth)) && P < 2 ^ W

/-- One shift of `CrcByteWide` (R173). -/
def crcShiftWide (W P r : Nat) : Nat :=
  if r.testBit (W - 1) then ((r <<< 1) &&& mask W) ^^^ P else (r <<< 1) &&& mask W

/-- `CrcByteWide(r, b, W, P)` (R173). -/
def crcByteWide (r : Nat) (b : Byte) (W P : Nat) : Nat :=
  (crcShiftWide W P)^[8] (r ^^^ (b.toNat <<< (W - 8)))

/-- One shift of `CrcByte4` (R174). -/
def crcShift4 (p8 r8 : Nat) : Nat :=
  if r8.testBit 7 then ((r8 <<< 1) &&& 0xFF) ^^^ p8 else (r8 <<< 1) &&& 0xFF

/-- `CrcByte4(r8, b, P)` (R174). -/
def crcByte4 (r8 : Nat) (b : Byte) (P : Nat) : Nat :=
  (crcShift4 (P <<< 4))^[8] (r8 ^^^ b.toNat)

/-- One byte into the working register of either algorithm (R172). -/
def crcByte (r : Nat) (b : Byte) (W P : Nat) : Nat :=
  if W = 4 then crcByte4 r b P else crcByteWide r b W P

/-- `CrcOut(r, W)` (R175; the shift is logical, 90_conflicts C2). -/
def crcOut (r W : Nat) : Nat := if W = 4 then r >>> 4 else r

/-- `CrcBits(B, W, P)` (R172): initial value 0, no final XOR, no reflection (R171). -/
def crcBits (B : List Byte) (W P : Nat) : Nat :=
  crcOut (B.foldl (fun r b => crcByte r b W P) 0) W

/-- `CrcTblStep(r, b, W, T)` (R190). -/
def crcTblStep (r : Nat) (b : Byte) (W : Nat) (T : Nat → Nat) : Nat :=
  ((r <<< 8) ^^^ T (((r >>> (W - 8)) ^^^ b.toNat) &&& 0xFF)) &&& mask W

/-! ### Long division -/

/-- `Divisor(n, P, V)` (R201). -/
def divisor (n P : Nat) (V : Config.CheckVariant) : Nat :=
  match V with
  | .generator => (1 <<< n) ||| P
  | .literal => P

/-- One iteration of LD's loop (R200): XOR the divisor in, aligned to the leading 1 of w. -/
def ldStep (D w : Nat) : Nat := w ^^^ (D <<< (bitLen w - bitLen D))

/-- LD's loop (R200), with the bound R202 gives it: at most one iteration per bit of w. -/
def ldLoop (n D : Nat) : Nat → Nat → Nat
  | 0, w => w
  | fuel + 1, w => if 2 ^ n ≤ w then ldLoop n D fuel (ldStep D w) else w

/-- The number LD divides (R200). -/
def ldStart (payload chk n : Nat) : Nat := (payload <<< n) ||| chk

/-- The remainder `LD(payload, chk, n, P, V).rem` (R200). -/
def longDivide (payload chk n P : Nat) (V : Config.CheckVariant) : Nat :=
  let w := ldStart payload chk n
  ldLoop n (divisor n P V) (bitLen w) w

/-- `LD(payload, chk, n, P, V).pass` (R200). -/
def ldPass (payload chk n P : Nat) (V : Config.CheckVariant) : Bool :=
  longDivide payload chk n P V == 0

/-! ### Header check -/

/-- `HdrCheck(h)` (41_frame_sync R231) under either reading of the divisor. -/
def hdrCheckWith (V : Config.CheckVariant) (h : Byte) : Bool :=
  let seq := (h.extractLsb' 4 4).toNat
  let chk := (h.extractLsb' 0 4).toNat
  ldPass ((Config.fscore.marker.toNat <<< 4) ||| seq) chk Config.fscore.hdrWidth Config.fscore.hdrPoly V

/-- `HdrCheck(h)` of FSCORE (R231). -/
def hdrCheck (h : Byte) : Bool := hdrCheckWith Config.fscore.hdrCheckVariant h

end Sys2Proof.Machine
end

