-- ==== Sys2Proof/Machine/State.lean ====
section
/-! DEFINITION. The state of FSCORE (spec/10_state.md) beside the three agents that move it (spec/00_scope.md R19). -/

namespace Sys2Proof.Machine

open Sys2Proof

/-- A register file by (index, byte) pairs, in canonical form (`Memory.wf` of Machine/Ops.lean). -/
abbrev Memory := List Host.Cell

/-- The completion codes of STATUS.ERR (60_exceptions R310); codes 8 to 15 are never produced. -/
inductive ErrCode where
  | ok
  | syncTimeout
  | checksumMismatch
  | unknownReportId
  | frameShort
  | configError
  | tableInvalid
  | illegalCmd
  deriving DecidableEq, Repr

/-- `sync_state` (41_frame_sync R230). -/
inductive SyncState where
  | searching
  | synchronized
  deriving DecidableEq, Repr

/-- Where the synchronizer's search stands: before a marker-candidate read or before a header read (R232). -/
inductive SyncPos where
  | candidate
  | header
  deriving DecidableEq, Repr

/-- The locals of `SyncCore` (R232). -/
structure SyncRun where
  budget : Nat
  reads : Nat
  fails : Nat
  pos : SyncPos
  deriving DecidableEq, Repr

/-- The parts of FRAME (42_packet_decoder R269). -/
inductive FramePhase where
  | search (r : SyncRun)
  | body (k : Nat)
  deriving DecidableEq, Repr

/-- A long command in progress, with its internal progress (10_state R31). -/
inductive Running where
  /-- TBL_BUILD for (W, P), about to compute entry i (40_crc_engine R185). -/
  | tblBuild (width : BitVec 6) (poly : Word) (i : Nat)
  /-- CRC_CHECK with (n, P) and the working value w of the division (R200, R205). -/
  | crcCheck (width : BitVec 6) (poly : Word) (w : Nat)
  /-- SYNC (41_frame_sync R232). -/
  | sync (r : SyncRun)
  /-- DECODE, about to read body byte k (42_packet_decoder R267, R268). -/
  | decode (k : Nat)
  /-- FRAME (R269). -/
  | frame (p : FramePhase)
  /-- DECODE_BUF (R266). -/
  | decodeBuf
  deriving DecidableEq, Repr

/-- `seq_state` (10_state R31). -/
inductive SeqState where
  | idle
  | run (c : Running)
  deriving DecidableEq, Repr

/-- HDR_INFO (10_state R55). -/
structure HdrInfo where
  chk : BitVec 4
  seq : BitVec 4
  fails : BitVec 8
  reads : BitVec 8
  deriving DecidableEq, Repr

/-- The packet registers PKT_* (10_state R60 to R65). -/
structure Packet where
  diff : Vector Word 6
  sum : Vector Word 6
  reportId : Byte
  seqNum : Byte
  accuracy : BitVec 2
  sensor : Byte
  delay : BitVec 14
  imuX : BitVec 16
  imuY : BitVec 16
  imuZ : BitVec 16
  deriving DecidableEq, Repr

/-- The byte source's answer to one read attempt (20_memory R111). -/
inductive PortAnswer where
  | byte (b : Byte)
  | timeout
  deriving DecidableEq, Repr

/-- The host bus's answer to the last access (20_memory R102, R104; log 4). -/
inductive BusAnswer where
  | none
  | done
  | data (v : Word)
  | error
  deriving DecidableEq, Repr

/-- What happens next, and by which agent (00_scope R19; log 1, log 2, log 17). -/
inductive Event where
  /-- The host issues an access. -/
  | host (c : Code)
  /-- The host polls STATUS until BUSY is 0 (30_encoding R153). -/
  | poll
  /-- The sequencer takes its next step. -/
  | sequencer
  /-- The byte source takes a step: it settles its answer to the next read attempt without one (20_memory R111, R112;
  log 3). -/
  | byteSource (a : PortAnswer)
  /-- The platform asserts reset; `takesByte` says whether a byte in flight is consumed (70_reset R352; log 9). -/
  | reset (takesByte : Bool)
  deriving DecidableEq, Repr

/-- The state: FSCORE's own (10_state R73), then the model's fields for the external agents. -/
structure State where
  /-- CMD (R35). -/
  cmd : Word
  /-- STATUS.DONE (R38). -/
  done : Bool
  /-- STATUS.PKT_VALID (R40). -/
  pktValid : Bool
  /-- STATUS.OVR (R41). -/
  ovr : Bool
  /-- STATUS.CHK_PASS (R42). -/
  chkPass : Bool
  /-- STATUS.ERR (R44). -/
  err : ErrCode
  /-- CRC_CFG.WIDTH (R45). -/
  crcWidth : BitVec 6
  /-- CRC_POLY (R46). -/
  crcPoly : Word
  /-- `crc_reg` (R68). -/
  crcReg : Word
  /-- `cur_width`, CRC_CUR (R69, R48). -/
  curWidth : BitVec 6
  /-- `cur_poly`, CRC_CUR_POLY (R69, R49). -/
  curPoly : Word
  /-- CHK_PAYLOAD (R50). -/
  chkPayload : Word
  /-- CHK_SUM (R51). -/
  chkSum : Word
  /-- CHK_REM (R52). -/
  chkRem : Word
  /-- SYNC_CFG.SCAN_MAX (R53). -/
  scanMax : BitVec 8
  /-- SENSOR_NUM.NUM (R54). -/
  sensorNum : BitVec 8
  /-- HDR_INFO (R55). -/
  hdr : HdrInfo
  /-- CRC_RX (R56). -/
  crcRx : Word
  /-- CRC_CALC (R57). -/
  crcCalc : Word
  /-- `tbl_width` (R58). -/
  tblWidth : BitVec 6
  /-- `tbl_poly` (R59). -/
  tblPoly : Word
  /-- `tbl_valid` (R58, R43). -/
  tblValid : Bool
  /-- TABLE, entry i in the bytes 4i to 4i+3, least significant first (R67; log 14). -/
  table : Memory
  /-- The PKT_* registers (R60 to R65). -/
  pkt : Packet
  /-- FBUF (R66). -/
  fbuf : Memory
  /-- `sync_state` (R70). -/
  syncState : SyncState
  /-- `seq_state` (R31). -/
  seq : SeqState
  /-- The model's: what the agents do next, first to last (log 1, log 2). -/
  agenda : List Event
  /-- The model's: the byte source's answers that no read attempt has taken yet, first to last (log 3). -/
  port : List PortAnswer
  /-- The model's: the answer the host got to its last access (log 4). -/
  bus : BusAnswer
  /-- The model's: how many unspecified values were drawn (log 5). -/
  freeCount : Nat
  deriving DecidableEq, Repr

/-- No step of FSCORE stops the machine: every condition of 60_exceptions R310 is a completion code, a bus error
changes nothing and is answered on the bus (R319, log 11), and a byte source that never answers leaves the machine
running without progress (R113). So there is no fault, and nobody raises one. -/
inductive Fault where
  deriving DecidableEq, Repr

/-- Why a step has no meaning. -/
inductive Refusal where
  /-- Raised by an arm of `exec` whose instruction has no meaning yet (there is none); safe. -/
  | notModelled (mnemonic : String)
  deriving DecidableEq, Repr

/-- The packet registers after reset (10_state R73). -/
def Packet.zero : Packet where
  diff := Vector.replicate 6 0
  sum := Vector.replicate 6 0
  reportId := 0
  seqNum := 0
  accuracy := 0
  sensor := 0
  delay := 0
  imuX := 0
  imuY := 0
  imuZ := 0

/-- The machine after reset (10_state R73, 70_reset R351). The stored TABLE entries are DESIGN CHOICE 0 (log 6), the
model's own fields are DESIGN CHOICE empty (log 1, 3, 4, 5). -/
def State.reset : State where
  cmd := 0x00000000
  done := false
  pktValid := false
  ovr := false
  chkPass := false
  err := .ok
  crcWidth := 32
  crcPoly := 0x04C11DB7
  crcReg := 0
  curWidth := 32
  curPoly := 0x04C11DB7
  chkPayload := 0
  chkSum := 0
  chkRem := 0
  scanMax := Config.fscore.scanReset
  sensorNum := 0
  hdr := { chk := 0, seq := 0, fails := 0, reads := 0 }
  crcRx := 0
  crcCalc := 0
  tblWidth := 0
  tblPoly := 0
  tblValid := false
  table := []
  pkt := Packet.zero
  fbuf := []
  syncState := .searching
  seq := .idle
  agenda := []
  port := []
  bus := .none
  freeCount := 0

end Sys2Proof.Machine
end

