-- ==== Sys2Proof/Machine/Flags.lean ====
section
/-! DEFINITION. The STATUS register and its flags (spec/10_state.md R36 to R44). -/

namespace Sys2Proof.Machine

open Sys2Proof

/-- STATUS.BUSY: `seq_state` = RUN(op) (R37). -/
def State.busy (s : State) : Bool :=
  match s.seq with
  | .idle => false
  | .run _ => true

/-- STATUS.SYNCED: `sync_state` = SYNCHRONIZED (R39). -/
def State.synced (s : State) : Bool :=
  match s.syncState with
  | .searching => false
  | .synchronized => true

/-- The number of a completion code (60_exceptions R310). -/
def ErrCode.number : ErrCode → BitVec 4
  | .ok => 0
  | .syncTimeout => 1
  | .checksumMismatch => 2
  | .unknownReportId => 3
  | .frameShort => 4
  | .configError => 5
  | .tableInvalid => 6
  | .illegalCmd => 7

/-- The STATUS word (R36): [0] BUSY, [1] DONE, [2] SYNCED, [3] PKT_VALID, [4] OVR, [5] CHK_PASS, [6] TBL_VALID,
[7] reads 0, [11:8] ERR, [31:12] read 0. -/
def statusWord (s : State) : Word :=
  (0 : BitVec 20) ++ s.err.number ++ (0 : BitVec 1) ++ BitVec.ofBool s.tblValid ++ BitVec.ofBool s.chkPass
    ++ BitVec.ofBool s.ovr ++ BitVec.ofBool s.pktValid ++ BitVec.ofBool s.synced ++ BitVec.ofBool s.done
    ++ BitVec.ofBool s.busy

/-- A write to STATUS: bit 4 of the word clears OVR, nothing else is written (R36, R41). -/
def statusWrite (v : Word) (s : State) : State :=
  if v.getLsbD 4 then { s with ovr := false } else s

end Sys2Proof.Machine
end

