-- ==== Sys2Proof/Machine/Ops.lean ====
section
/-! DEFINITION. The operations the meanings share: register files, the host bus, command issue and completion, the byte
port, and reset. FSCORE has no exceptions to take or to return from (spec/60_exceptions.md R323, R324): a command that
fails ends by `finish` with its code (R320). -/

namespace Sys2Proof.Machine

open Sys2Proof

/-! ### Register files -/

/-- What an unlisted index reads as: the reset contents of FBUF (10_state R66, R73). For TABLE, whose stored reset
contents the spec leaves unspecified and unobservable (R67), DESIGN CHOICE (log 6). -/
def Memory.unlisted : Byte := 0x00

/-- The byte at an index. -/
def Memory.read : Memory → Nat → Byte
  | [], _ => Memory.unlisted
  | (k, b) :: m, a => if k = a then b else Memory.read m a

/-- Store a byte at an index, keeping the canonical form: indices rise, and no entry holds the unlisted value. -/
def Memory.write : Memory → Nat → Byte → Memory
  | [], a, b => if b = Memory.unlisted then [] else [(a, b)]
  | (k, v) :: m, a, b =>
    if a < k then
      if b = Memory.unlisted then (k, v) :: m else (a, b) :: (k, v) :: m
    else if a = k then
      if b = Memory.unlisted then m else (a, b) :: m
    else (k, v) :: Memory.write m a b

/-- The canonical form: strictly rising indices, no entry equal to the unlisted value. -/
abbrev Memory.wf (m : Memory) : Prop :=
  m.Pairwise (fun c d => c.1 < d.1) ∧ ∀ c ∈ m, c.2 ≠ Memory.unlisted

/-- The 32-bit word in bytes 4i to 4i+3, the least significant first (20_memory R105). -/
def Memory.readWord (m : Memory) (i : Nat) : Word :=
  le32 (m.read (4 * i)) (m.read (4 * i + 1)) (m.read (4 * i + 2)) (m.read (4 * i + 3))

/-- Store a 32-bit word in bytes 4i to 4i+3, the least significant first (20_memory R105). -/
def Memory.writeWord (m : Memory) (i : Nat) (w : Word) : Memory :=
  (((m.write (4 * i) (byteOf w 0)).write (4 * i + 1) (byteOf w 1)).write (4 * i + 2) (byteOf w 2)).write
    (4 * i + 3) (byteOf w 3)

/-- FBUF[n]; FBUF[51] does not exist and reads 0x00 (20_memory R106). -/
def fbufByte (s : State) (n : Nat) : Byte :=
  if n < Config.fscore.bodyLen then s.fbuf.read n else 0x00

/-- FBUF[n] <- b; only the bytes 0 to 50 exist (20_memory R106). -/
def storeFbuf (n : Nat) (b : Byte) (s : State) : State :=
  if n < Config.fscore.bodyLen then { s with fbuf := s.fbuf.write n b } else s

/-- TABLE[i] as stored (10_state R67). -/
def tableEntry (s : State) (i : Nat) : Word := s.table.readWord i

/-- TABLE[i] <- v (40_crc_engine R185). -/
def storeTable (i : Nat) (v : Word) (s : State) : State :=
  { s with table := s.table.writeWord i v }

/-! ### Host bus -/

/-- The bus answers the host's access (20_memory R102, R104). -/
def answer (b : BusAnswer) (s : State) : State := { s with bus := b }

/-- A write refused because FSCORE is BUSY: dropped, and recorded by OVR (10_state R71, R41). -/
def refuseWrite (s : State) : State := { s with ovr := true }

/-! ### Command issue and completion -/

/-- A command word is accepted (30_encoding R145). -/
def accept (v : Word) (s : State) : State := { s with cmd := v, done := false, err := .ok }

/-- `finish(code)` (60_exceptions R320). -/
def finish (code : ErrCode) (s : State) : State := { s with err := code, done := true, seq := .idle }

/-- A long command begins to run: `seq_state <- RUN(op)` (10_state R31). -/
def start (c : Running) (s : State) : State := { s with seq := .run c }

/-- A host write of command word v whose command has the rule `rule` (30_encoding R145): refused while BUSY, else
accepted and executed. -/
def issue (v : Word) (rule : State → State) (s : State) : State :=
  if s.busy then refuseWrite (answer .done s) else rule (accept v (answer .done s))

/-! ### The byte port -/

/-- `PortRead()` (20_memory R111): the byte source's next answer, or nothing while it has not answered (R113). -/
def portRead (s : State) : Option (PortAnswer × State) :=
  match s.port with
  | [] => none
  | a :: rest => some (a, { s with port := rest })

/-- The byte source's own step (00_scope R19): its next answer, behind the answers not taken yet, since answers come in
stream order (20_memory R112; log 3). No FSCORE state changes. -/
def portAnswer (a : PortAnswer) (s : State) : State := { s with port := s.port ++ [a] }

/-! ### Reset -/

/-- The running command waits on a read attempt (41_frame_sync R232, 42_packet_decoder R268). -/
def Running.readsPort : Running → Bool
  | .tblBuild _ _ _ => false
  | .crcCheck _ _ _ => false
  | .sync r => r.pos = .header || r.reads < r.budget
  | .decode _ => true
  | .frame (.search r) => r.pos = .header || r.reads < r.budget
  | .frame (.body _) => true
  | .decodeBuf => false

/-- A read attempt is in progress. -/
def State.readsPort (s : State) : Bool :=
  match s.seq with
  | .idle => false
  | .run c => c.readsPort

/-- The platform's reset (70_reset R350 to R352): every piece of FSCORE state takes its reset value; the host, the byte
source and the answers already given stay, except that the answer of an attempt in progress may be consumed (log 9). -/
def platformReset (takesByte : Bool) (s : State) : State :=
  { State.reset with
    agenda := s.agenda
    port := if takesByte && s.readsPort then s.port.tail else s.port
    bus := s.bus
    freeCount := s.freeCount }

end Sys2Proof.Machine
end

