-- ==== Sys2Proof/Machine/Operands.lean ====
section
/-! DEFINITION. The registers as a host reads and writes them (spec/10_state.md R33 to R67, R71, R72) and the forms of
register access. -/

namespace Sys2Proof.Machine

open Sys2Proof

/-! ### Values -/

/-- CRC_RESULT (R47): the width-4 register is shifted right by 4 on the read. -/
def crcResult (s : State) : Word :=
  if s.curWidth = 4 then (s.crcReg.extractLsb' 4 4).setWidth 32
  else BitVec.ofNat 32 (s.crcReg.toNat &&& mask s.curWidth.toNat)

/-- HDR_INFO (R55): [3:0] CHK, [7:4] SEQ, [15:8] FAILS, [23:16] READS. -/
def hdrWord (h : HdrInfo) : Word := (0 : BitVec 8) ++ h.reads ++ h.fails ++ h.seq ++ h.chk

/-- TBL_INFO (R58): [5:0] WIDTH, [31] VALID. -/
def tblInfoWord (s : State) : Word := BitVec.ofBool s.tblValid ++ (0 : BitVec 25) ++ s.tblWidth

/-- PKT_INFO (R62): [7:0] REPORT_ID, [15:8] SEQ_NUM, [17:16] ACCURACY, [31:24] SENSOR. -/
def pktInfoWord (p : Packet) : Word := p.sensor ++ (0 : BitVec 6) ++ p.accuracy ++ p.seqNum ++ p.reportId

/-- FBUF word k (R66, 20_memory R106). -/
def fbufWord (s : State) (k : Nat) : Word :=
  le32 (fbufByte s (4 * k)) (fbufByte s (4 * k + 1)) (fbufByte s (4 * k + 2)) (fbufByte s (4 * k + 3))

/-- A TABLE read: 0 while `tbl_valid` = 0 (R67, 20_memory R107). -/
def tableWord (s : State) (i : Nat) : Word := if s.tblValid then tableEntry s i else 0

/-- The value of a register (R33 to R67). -/
def regValue (r : Reg) (s : State) : Word :=
  match r with
  | .cmd => s.cmd
  | .status => statusWord s
  | .crcCfg => s.crcWidth.setWidth 32
  | .crcPoly => s.crcPoly
  | .crcResult => crcResult s
  | .crcCur => s.curWidth.setWidth 32
  | .crcCurPoly => s.curPoly
  | .chkPayload => s.chkPayload
  | .chkSum => s.chkSum
  | .chkRem => s.chkRem
  | .syncCfg => s.scanMax.setWidth 32
  | .sensorNum => s.sensorNum.setWidth 32
  | .hdrInfo => hdrWord s.hdr
  | .crcRx => s.crcRx
  | .crcCalc => s.crcCalc
  | .tblInfo => tblInfoWord s
  | .tblPoly => s.tblPoly
  | .pktDiff j => s.pkt.diff[j]
  | .pktSum j => s.pkt.sum[j]
  | .pktInfo => pktInfoWord s.pkt
  | .pktDelay => s.pkt.delay.setWidth 32
  | .pktImuXy => s.pkt.imuY ++ s.pkt.imuX
  | .pktImuZ => s.pkt.imuZ.setWidth 32
  | .fbuf k => fbufWord s k
  | .table i => tableWord s i.toNat

/-! ### Reads while a command runs -/

/-- The opcode of a running command, the op of RUN(op) (R31). -/
def Running.op : Running → Opcode
  | .tblBuild _ _ _ => .tblBuild
  | .crcCheck _ _ _ => .crcCheck
  | .sync _ => .sync
  | .decode _ => .decode
  | .frame _ => .frame
  | .decodeBuf => .decodeBuf

/-- The registers a decode writes: CRC_RX, CRC_CALC, PKT_* (60_exceptions R322). -/
def decodeWrites : Reg → Bool
  | .crcRx | .crcCalc | .pktDiff _ | .pktSum _ | .pktInfo | .pktDelay | .pktImuXy | .pktImuZ => true
  | _ => false

/-- The write set of a command as registers (60_exceptions R322). STATUS is in none: its reads are exact. -/
def writeSet (op : Opcode) (r : Reg) : Bool :=
  match op with
  | .tblBuild =>
    match r with
    | .table _ | .tblInfo | .tblPoly => true
    | _ => false
  | .crcCheck => r = .chkRem
  | .sync => r = .hdrInfo
  | .decode =>
    match r with
    | .fbuf _ => true
    | _ => decodeWrites r
  | .frame =>
    match r with
    | .fbuf _ | .hdrInfo => true
    | _ => decodeWrites r
  | .decodeBuf => decodeWrites r
  | .nop | .crcInit | .crcUpdBit | .crcUpdTbl => false

/-- A read of r is unspecified now: a running command may write r (R72). -/
def unspecifiedRead (r : Reg) (s : State) : Bool :=
  match s.seq with
  | .idle => false
  | .run c => writeSet c.op r

/-- A host read of a register (R34, R72): its value, or a free value while the running command may write it (log 5).
No FSCORE state changes. -/
def hostRead (r : Reg) (s : State) : State :=
  if unspecifiedRead r s then
    { answer (.data (Config.busyRead s.freeCount)) s with freeCount := s.freeCount + 1 }
  else answer (.data (regValue r s)) s

/-! ### Forms of access -/

/-- A register of class RO (R34): a write has no effect and sets no flag. -/
def accessRO (r : Reg) (a : Access) (s : State) : State :=
  match a with
  | .read => hostRead r s
  | .write _ => answer .done s

/-- A register of class RW (R34): a write stores, but is refused while BUSY (R71). -/
def accessRW (r : Reg) (store : Word → State → State) (a : Access) (s : State) : State :=
  match a with
  | .read => hostRead r s
  | .write v => if s.busy then refuseWrite (answer .done s) else store v (answer .done s)

/-- STATUS (R36): a read is exact, a write is performed, also while BUSY. -/
def accessStatus (a : Access) (s : State) : State :=
  match a with
  | .read => hostRead .status s
  | .write v => statusWrite v (answer .done s)

/-- A reserved offset (20_memory R103): reads 0, ignores writes. -/
def accessReserved (a : Access) (s : State) : State :=
  match a with
  | .read => answer (.data 0) s
  | .write _ => answer .done s

/-- A write of FBUF word k (20_memory R106). -/
def storeFbufWord (k : Nat) (v : Word) (s : State) : State :=
  storeFbuf (4 * k + 3) (byteOf v 3)
    (storeFbuf (4 * k + 2) (byteOf v 2) (storeFbuf (4 * k + 1) (byteOf v 1) (storeFbuf (4 * k) (byteOf v 0) s)))

/-- An access to FBUF word k (R66); a k above 12 is a reserved offset (R33; DESIGN CHOICE for a term
the decoder never gives, log 16). -/
def accessFbuf (k : BitVec 4) (a : Access) (s : State) : State :=
  if h : k.toNat < 13 then accessRW (.fbuf ⟨k.toNat, h⟩) (storeFbufWord k.toNat) a s else accessReserved a s

end Sys2Proof.Machine
end

