-- ==== Sys2Proof/Machine/PacketDecoder.lean ====
section
/-! DEFINITION. The packet decoder (spec/42_packet_decoder.md R260 to R265, R278 to R285). -/

namespace Sys2Proof.Machine

open Sys2Proof

/-- The bytes FBUF[0..46], which the CRC-32 covers (R261). -/
def payload (s : State) : List Byte := (List.range Config.fscore.payloadLen).map (fbufByte s)

/-- The checksum computed over the payload, on the decoder's own datapath (R261). -/
def calcCrc (s : State) : Word :=
  BitVec.ofNat 32 (crcBits (payload s) Config.fscore.frameWidth Config.fscore.framePoly)

/-- The received checksum, little-endian in bytes 47 to 50 (R262). -/
def receivedCrc (s : State) : Word := le32 (fbufByte s 47) (fbufByte s 48) (fbufByte s 49) (fbufByte s 50)

/-- The known report codes (R264, R281). -/
def knownReport (c : Byte) : Bool := c = 0x01 || c = 0x02 || c = 0x04 || c = 0x05 || c = 0x08

/-- The signed 24-bit element at body offset n, sign-extended (R278, R279). -/
def element24 (s : State) (n : Nat) : Word :=
  sext32 (le24 (fbufByte s n) (fbufByte s (n + 1)) (fbufByte s (n + 2)))

/-- DELAY (R283): the extension bits of the status byte above byte 40. -/
def delayOf (status low : Byte) : BitVec 14 := status.extractLsb' 2 6 ++ low

/-- The packet in FBUF (R265, R278 to R285). -/
def unpack (s : State) : Packet where
  diff := #v[element24 s 0, element24 s 3, element24 s 6, element24 s 9, element24 s 12, element24 s 15]
  sum := #v[element24 s 18, element24 s 21, element24 s 24, element24 s 27, element24 s 30, element24 s 33]
  reportId := fbufByte s 37
  seqNum := fbufByte s 38
  accuracy := (fbufByte s 39).extractLsb' 0 2
  sensor := s.sensorNum
  delay := delayOf (fbufByte s 39) (fbufByte s 40)
  imuX := le16 (fbufByte s 41) (fbufByte s 42)
  imuY := le16 (fbufByte s 43) (fbufByte s 44)
  imuZ := le16 (fbufByte s 45) (fbufByte s 46)

/-- `Commit()` (R265). -/
def commit (s : State) : State := { s with pkt := unpack s, pktValid := true }

/-- CRC_CALC and CRC_RX as DecodeBody leaves them (R260, R263). -/
def recordCrcs (s : State) : State := { s with crcCalc := calcCrc s, crcRx := receivedCrc s }

/-- The code of `DecodeBody()` (R260): a mismatch is reported in preference to an unknown report code (R264). -/
def bodyCode (s : State) : ErrCode :=
  if calcCrc s ≠ receivedCrc s then .checksumMismatch
  else if knownReport (fbufByte s 37) then .ok
  else .unknownReportId

/-- The effect of `DecodeBody()` (R260): the two checksums always, the packet only on success. -/
def decodeBody (s : State) : State :=
  if bodyCode s = .ok then commit (recordCrcs s) else recordCrcs s

end Sys2Proof.Machine
end

