-- ==== Sys2Proof/Machine/Sequencer.lean ====
section
/-! DEFINITION. The sequencer's steps of the long commands (spec/10_state.md R31): one table entry, one division step,
one port answer, or one decode a step, the counts of spec/70_reset_and_hazards.md R362 (log 2). -/

namespace Sys2Proof.Machine

open Sys2Proof

/-! ### TBL_BUILD -/

/-- The entry TBL_BUILD stores for byte value i (40_crc_engine R185, R186). -/
def tableValue (W P i : Nat) : Word := BitVec.ofNat 32 (crcBits [BitVec.ofNat 8 i] W P)

/-- One entry of TBL_BUILD (40_crc_engine R185); the last one writes the tag and finishes. -/
def tblBuildStep (W : BitVec 6) (P : Word) (i : Nat) (s : State) : State :=
  let s := storeTable i (tableValue W.toNat P.toNat i) s
  if i + 1 < Config.fscore.tblEntries then start (.tblBuild W P (i + 1)) s
  else finish .ok { s with tblWidth := W, tblPoly := P, tblValid := true }

/-! ### CRC_CHECK -/

/-- One division step of CRC_CHECK (40_crc_engine R200, R205); the one that brings w below 2^n finishes. -/
def crcCheckStep (W : BitVec 6) (P : Word) (w : Nat) (s : State) : State :=
  let n := W.toNat
  let w := if 2 ^ n ≤ w then ldStep (divisor n P.toNat Config.fscore.hdrCheckVariant) w else w
  if 2 ^ n ≤ w then start (.crcCheck W P w) s
  else
    finish (if w = 0 then .ok else .checksumMismatch) { s with chkRem := BitVec.ofNat 32 w, chkPass := w == 0 }

/-! ### SyncCore -/

/-- A step of `SyncCore` either leaves it searching or ends it with its code. -/
inductive SearchResult where
  | searching (r : SyncRun) (s : State)
  | ended (code : ErrCode) (s : State)
  deriving DecidableEq, Repr

/-- The scan budget is exhausted: only FAILS and READS are written (41_frame_sync R232, R236). -/
def searchTimeout (r : SyncRun) (s : State) : SearchResult :=
  .ended .syncTimeout
    { s with hdr := { s.hdr with fails := BitVec.ofNat 8 r.fails, reads := BitVec.ofNat 8 r.reads } }

/-- `while reads < budget` (R232). -/
def searchOn (r : SyncRun) (s : State) : SearchResult :=
  if r.reads < r.budget then .searching { r with pos := .candidate } s else searchTimeout r s

/-- A valid header: SYNCHRONIZED, and HDR_INFO written in full (R232, R236). -/
def searchFound (r : SyncRun) (h : Byte) (s : State) : SearchResult :=
  .ended .ok
    { s with
      syncState := .synchronized
      hdr :=
        { chk := h.extractLsb' 0 4, seq := h.extractLsb' 4 4
          fails := BitVec.ofNat 8 r.fails, reads := BitVec.ofNat 8 r.reads } }

/-- A marker-candidate read (R233): the marker is matched as a whole byte (R240), a timeout counts like a byte. -/
def searchCandidate (r : SyncRun) (s : State) : SearchResult :=
  if r.reads < r.budget then
    match portRead s with
    | none => .searching r s
    | some (a, s) =>
      if a = .byte Config.fscore.marker then .searching { r with reads := r.reads + 1, pos := .header } s
      else searchOn { r with reads := r.reads + 1 } s
  else searchTimeout r s

/-- The header read, not counted against the budget (R233); a failed or timed-out header is counted in FAILS and
not scanned again (R234, R235). -/
def searchHeader (r : SyncRun) (s : State) : SearchResult :=
  match portRead s with
  | none => .searching r s
  | some (.timeout, s) => searchOn { r with fails := r.fails + 1 } s
  | some (.byte h, s) => if hdrCheck h then searchFound r h s else searchOn { r with fails := r.fails + 1 } s

/-- One step of `SyncCore` (R232). -/
def searchStep (r : SyncRun) (s : State) : SearchResult :=
  match r.pos with
  | .candidate => searchCandidate r s
  | .header => searchHeader r s

/-- The locals of `SyncCore` as it begins (R232). -/
def searchBegin (s : State) : SyncRun :=
  { budget := s.scanMax.toNat, reads := 0, fails := 0, pos := .candidate }

/-! ### ReadBody and DecodeBody -/

/-- A step of `ReadBody`, with the decode after its last byte, either leaves it reading or ends with a code. -/
inductive BodyResult where
  | reading (k : Nat) (s : State)
  | ended (code : ErrCode) (s : State)
  deriving DecidableEq, Repr

/-- One body byte (42_packet_decoder R268); the last one is followed by `DecodeBody` (R267, R269). -/
def bodyStep (k : Nat) (s : State) : BodyResult :=
  match portRead s with
  | none => .reading k s
  | some (.timeout, s) => .ended .frameShort s
  | some (.byte b, s) =>
    let s := storeFbuf k b s
    if k + 1 < Config.fscore.bodyLen then .reading (k + 1) s else .ended (bodyCode s) (decodeBody s)

/-- The end of DECODE and of FRAME, with any code (R270). -/
def endFrame (code : ErrCode) (s : State) : State := finish code { s with syncState := .searching }

/-! ### The long commands -/

/-- SYNC (41_frame_sync R232). -/
def syncStep (r : SyncRun) (s : State) : State :=
  match searchStep r s with
  | .searching r s => start (.sync r) s
  | .ended code s => finish code s

/-- DECODE (42_packet_decoder R267). -/
def decodeStep (k : Nat) (s : State) : State :=
  match bodyStep k s with
  | .reading k s => start (.decode k) s
  | .ended code s => endFrame code s

/-- FRAME (R269). -/
def frameStep (p : FramePhase) (s : State) : State :=
  match p with
  | .search r =>
    match searchStep r s with
    | .searching r s => start (.frame (.search r)) s
    | .ended .ok s => start (.frame (.body 0)) s
    | .ended code s => endFrame code s
  | .body k =>
    match bodyStep k s with
    | .reading k s => start (.frame (.body k)) s
    | .ended code s => endFrame code s

/-- DECODE_BUF (R266). -/
def decodeBufStep (s : State) : State := finish (bodyCode s) (decodeBody s)

/-- The sequencer's next step; while IDLE it changes no state (60_exceptions R331). -/
def sequencerStep (s : State) : State :=
  match s.seq with
  | .idle => s
  | .run (.tblBuild W P i) => tblBuildStep W P i s
  | .run (.crcCheck W P w) => crcCheckStep W P w s
  | .run (.sync r) => syncStep r s
  | .run (.decode k) => decodeStep k s
  | .run (.frame p) => frameStep p s
  | .run .decodeBuf => decodeBufStep s

end Sys2Proof.Machine
end

