-- ==== Sys2Proof/Machine/CrcCommands.lean ====
section
/-! DEFINITION. The commands of spec/40_crc_engine.md, and the illegal command words (spec/30_encoding.md R146). -/

namespace Sys2Proof.Machine

open Sys2Proof

/-- NOP (R177). -/
def execNop (s : State) : Host.Outcome State Fault Refusal :=
  .next (issue (commandWord .nop 0) (finish .ok) s)

/-- The rule of CRC_INIT (R178). -/
def ruleCrcInit (s : State) : State :=
  if cfgLegal s.crcWidth.toNat s.crcPoly.toNat then
    finish .ok { s with curWidth := s.crcWidth, curPoly := s.crcPoly, crcReg := 0 }
  else finish .configError s

/-- CRC_INIT (R178). -/
def execCrcInit (s : State) : Host.Outcome State Fault Refusal :=
  .next (issue (commandWord .crcInit 0) ruleCrcInit s)

/-- `crc_reg` after one byte by the bitwise algorithm (R179). -/
def crcRegBit (s : State) (b : Byte) : Word :=
  if s.curWidth = 4 then BitVec.ofNat 32 (crcByte4 (s.crcReg.extractLsb' 0 8).toNat b s.curPoly.toNat)
  else
    BitVec.ofNat 32
      (crcByteWide (s.crcReg.toNat &&& mask s.curWidth.toNat) b s.curWidth.toNat s.curPoly.toNat)

/-- The rule of CRC_UPD_BIT (R179). -/
def ruleCrcUpdBit (b : Byte) (s : State) : State := finish .ok { s with crcReg := crcRegBit s b }

/-- CRC_UPD_BIT b (R179). -/
def execCrcUpdBit (b : Byte) (s : State) : Host.Outcome State Fault Refusal :=
  .next (issue (commandWord .crcUpdBit b) (ruleCrcUpdBit b) s)

/-- The table is valid and was built for the current message's (W, P) (R191). -/
def tagMatches (s : State) : Bool := s.tblValid && s.tblWidth == s.curWidth && s.tblPoly == s.curPoly

/-- `crc_reg` after one byte by the table (R190, R191). -/
def crcRegTbl (s : State) (b : Byte) : Word :=
  BitVec.ofNat 32
    (crcTblStep (s.crcReg.toNat &&& mask s.curWidth.toNat) b s.curWidth.toNat (fun i => (tableEntry s i).toNat))

/-- The rule of CRC_UPD_TBL (R191): CONFIG_ERROR is checked before TABLE_INVALID. -/
def ruleCrcUpdTbl (b : Byte) (s : State) : State :=
  if s.curWidth = 4 then finish .configError s
  else if tagMatches s then finish .ok { s with crcReg := crcRegTbl s b }
  else finish .tableInvalid s

/-- CRC_UPD_TBL b (R191). -/
def execCrcUpdTbl (b : Byte) (s : State) : Host.Outcome State Fault Refusal :=
  .next (issue (commandWord .crcUpdTbl b) (ruleCrcUpdTbl b) s)

/-- The rule of TBL_BUILD up to its acceptance (R185); the table is invalid while it is built (10_state R74).
DEDUCED: from the acceptance on (log 13). -/
def ruleTblBuild (s : State) : State :=
  if cfgLegal s.crcWidth.toNat s.crcPoly.toNat then
    start (.tblBuild s.crcWidth s.crcPoly 0) { s with tblValid := false }
  else finish .configError s

/-- TBL_BUILD (R185): accepted or refused here, then advanced by `tblBuildStep`. -/
def execTblBuild (s : State) : Host.Outcome State Fault Refusal :=
  .next (issue (commandWord .tblBuild 0) ruleTblBuild s)

/-- The acceptance checks of CRC_CHECK after its configuration check (R205): the checksum has n bits, and the divisor
has a leading 1 (R202). -/
def checkOperands (s : State) : Bool :=
  s.chkSum.toNat < 2 ^ s.crcWidth.toNat && !(Config.fscore.hdrCheckVariant == .literal && s.crcPoly == 0)

/-- The rule of CRC_CHECK up to its acceptance (R205); CHK_PASS is cleared first. -/
def ruleCrcCheck (s : State) : State :=
  let s := { s with chkPass := false }
  if cfgLegal s.crcWidth.toNat s.crcPoly.toNat && checkOperands s then
    start (.crcCheck s.crcWidth s.crcPoly (ldStart s.chkPayload.toNat s.chkSum.toNat s.crcWidth.toNat)) s
  else finish .configError s

/-- CRC_CHECK (R205): accepted or refused here, then advanced by `crcCheckStep`. -/
def execCrcCheck (s : State) : Host.Outcome State Fault Refusal :=
  .next (issue (commandWord .crcCheck 0) ruleCrcCheck s)

/-- An illegal command word (30_encoding R146, 60_exceptions R311): stored in CMD, finished with ILLEGAL_CMD. -/
def execIllegalCmd (w : Word) (s : State) : Host.Outcome State Fault Refusal :=
  .next (issue w (finish .illegalCmd) s)

end Sys2Proof.Machine
end

