-- ==== Sys2Proof/Machine/FrameCommands.lean ====
section
/-! DEFINITION. The commands of spec/41_frame_sync.md and spec/42_packet_decoder.md, and the CMD write that issues any
command (spec/30_encoding.md R145). -/

namespace Sys2Proof.Machine

open Sys2Proof

/-- The rule of SYNC as it is accepted (R232 step 1). -/
def ruleSync (s : State) : State := start (.sync (searchBegin s)) { s with syncState := .searching }

/-- SYNC (R232): accepted here, then advanced by `syncStep`. -/
def execSync (s : State) : Host.Outcome State Fault Refusal :=
  .next (issue (commandWord .sync 0) ruleSync s)

/-- The rule of DECODE as it is accepted (R267). -/
def ruleDecode (s : State) : State := start (.decode 0) s

/-- DECODE (R267): accepted here, then advanced by `decodeStep`. -/
def execDecode (s : State) : Host.Outcome State Fault Refusal :=
  .next (issue (commandWord .decode 0) ruleDecode s)

/-- The rule of FRAME as it is accepted (R269, R232 step 1). -/
def ruleFrame (s : State) : State := start (.frame (.search (searchBegin s))) { s with syncState := .searching }

/-- FRAME (R269): accepted here, then advanced by `frameStep`. -/
def execFrame (s : State) : Host.Outcome State Fault Refusal :=
  .next (issue (commandWord .frame 0) ruleFrame s)

/-- The rule of DECODE_BUF as it is accepted (R266). -/
def ruleDecodeBuf (s : State) : State := start .decodeBuf s

/-- DECODE_BUF (R266): accepted here, then advanced by `decodeBufStep`. -/
def execDecodeBuf (s : State) : Host.Outcome State Fault Refusal :=
  .next (issue (commandWord .decodeBuf 0) ruleDecodeBuf s)

/-- A write of word w to CMD (30_encoding R145): the command w decodes to. -/
def issueWord (w : Word) (s : State) : Host.Outcome State Fault Refusal :=
  match decodeCommand w with
  | .nop => execNop s
  | .crcInit => execCrcInit s
  | .crcUpdBit b => execCrcUpdBit b s
  | .crcUpdTbl b => execCrcUpdTbl b s
  | .tblBuild => execTblBuild s
  | .crcCheck => execCrcCheck s
  | .sync => execSync s
  | .decode => execDecode s
  | .frame => execFrame s
  | .decodeBuf => execDecodeBuf s
  | .illegal w => execIllegalCmd w s

end Sys2Proof.Machine
end

