-- ==== Sys2Proof/Machine/Mmio.lean ====
section
/-! DEFINITION. The register accesses: one meaning per MMIO row of spec/opcode_table.json, over the forms of access of
Machine/Operands.lean (spec/10_state.md R33, R34). -/

namespace Sys2Proof.Machine

open Sys2Proof

/-- CMD, offset 0x000 (R35). -/
def execMmioCmd (a : Access) (s : State) : Host.Outcome State Fault Refusal :=
  match a with
  | .read => .next (hostRead .cmd s)
  | .write w => issueWord w s

/-- STATUS, offset 0x004 (R36). -/
def execMmioStatus (a : Access) (s : State) : Host.Outcome State Fault Refusal :=
  .next (accessStatus a s)

/-- CRC_CFG, offset 0x008 (R45). -/
def execMmioCrcCfg (a : Access) (s : State) : Host.Outcome State Fault Refusal :=
  .next (accessRW .crcCfg (fun v s => { s with crcWidth := v.extractLsb' 0 6 }) a s)

/-- CRC_POLY, offset 0x00C (R46). -/
def execMmioCrcPoly (a : Access) (s : State) : Host.Outcome State Fault Refusal :=
  .next (accessRW .crcPoly (fun v s => { s with crcPoly := v }) a s)

/-- CRC_RESULT, offset 0x010 (R47). -/
def execMmioCrcResult (a : Access) (s : State) : Host.Outcome State Fault Refusal :=
  .next (accessRO .crcResult a s)

/-- CRC_CUR, offset 0x014 (R48). -/
def execMmioCrcCur (a : Access) (s : State) : Host.Outcome State Fault Refusal :=
  .next (accessRO .crcCur a s)

/-- CRC_CUR_POLY, offset 0x018 (R49). -/
def execMmioCrcCurPoly (a : Access) (s : State) : Host.Outcome State Fault Refusal :=
  .next (accessRO .crcCurPoly a s)

/-- CHK_PAYLOAD, offset 0x01C (R50). -/
def execMmioChkPayload (a : Access) (s : State) : Host.Outcome State Fault Refusal :=
  .next (accessRW .chkPayload (fun v s => { s with chkPayload := v }) a s)

/-- CHK_SUM, offset 0x020 (R51). -/
def execMmioChkSum (a : Access) (s : State) : Host.Outcome State Fault Refusal :=
  .next (accessRW .chkSum (fun v s => { s with chkSum := v }) a s)

/-- CHK_REM, offset 0x024 (R52). -/
def execMmioChkRem (a : Access) (s : State) : Host.Outcome State Fault Refusal :=
  .next (accessRO .chkRem a s)

/-- SYNC_CFG, offset 0x028 (R53). -/
def execMmioSyncCfg (a : Access) (s : State) : Host.Outcome State Fault Refusal :=
  .next (accessRW .syncCfg (fun v s => { s with scanMax := v.extractLsb' 0 8 }) a s)

/-- SENSOR_NUM, offset 0x02C (R54). -/
def execMmioSensorNum (a : Access) (s : State) : Host.Outcome State Fault Refusal :=
  .next (accessRW .sensorNum (fun v s => { s with sensorNum := v.extractLsb' 0 8 }) a s)

/-- HDR_INFO, offset 0x030 (R55). -/
def execMmioHdrInfo (a : Access) (s : State) : Host.Outcome State Fault Refusal :=
  .next (accessRO .hdrInfo a s)

/-- CRC_RX, offset 0x034 (R56). -/
def execMmioCrcRx (a : Access) (s : State) : Host.Outcome State Fault Refusal :=
  .next (accessRO .crcRx a s)

/-- CRC_CALC, offset 0x038 (R57). -/
def execMmioCrcCalc (a : Access) (s : State) : Host.Outcome State Fault Refusal :=
  .next (accessRO .crcCalc a s)

/-- TBL_INFO, offset 0x03C (R58). -/
def execMmioTblInfo (a : Access) (s : State) : Host.Outcome State Fault Refusal :=
  .next (accessRO .tblInfo a s)

/-- TBL_POLY, offset 0x040 (R59). -/
def execMmioTblPoly (a : Access) (s : State) : Host.Outcome State Fault Refusal :=
  .next (accessRO .tblPoly a s)

/-- PKT_DIFF0, offset 0x060 (R60). -/
def execMmioPktDiff0 (a : Access) (s : State) : Host.Outcome State Fault Refusal :=
  .next (accessRO (.pktDiff 0) a s)

/-- PKT_DIFF1, offset 0x064 (R60). -/
def execMmioPktDiff1 (a : Access) (s : State) : Host.Outcome State Fault Refusal :=
  .next (accessRO (.pktDiff 1) a s)

/-- PKT_DIFF2, offset 0x068 (R60). -/
def execMmioPktDiff2 (a : Access) (s : State) : Host.Outcome State Fault Refusal :=
  .next (accessRO (.pktDiff 2) a s)

/-- PKT_DIFF3, offset 0x06C (R60). -/
def execMmioPktDiff3 (a : Access) (s : State) : Host.Outcome State Fault Refusal :=
  .next (accessRO (.pktDiff 3) a s)

/-- PKT_DIFF4, offset 0x070 (R60). -/
def execMmioPktDiff4 (a : Access) (s : State) : Host.Outcome State Fault Refusal :=
  .next (accessRO (.pktDiff 4) a s)

/-- PKT_DIFF5, offset 0x074 (R60). -/
def execMmioPktDiff5 (a : Access) (s : State) : Host.Outcome State Fault Refusal :=
  .next (accessRO (.pktDiff 5) a s)

/-- PKT_SUM0, offset 0x078 (R61). -/
def execMmioPktSum0 (a : Access) (s : State) : Host.Outcome State Fault Refusal :=
  .next (accessRO (.pktSum 0) a s)

/-- PKT_SUM1, offset 0x07C (R61). -/
def execMmioPktSum1 (a : Access) (s : State) : Host.Outcome State Fault Refusal :=
  .next (accessRO (.pktSum 1) a s)

/-- PKT_SUM2, offset 0x080 (R61). -/
def execMmioPktSum2 (a : Access) (s : State) : Host.Outcome State Fault Refusal :=
  .next (accessRO (.pktSum 2) a s)

/-- PKT_SUM3, offset 0x084 (R61). -/
def execMmioPktSum3 (a : Access) (s : State) : Host.Outcome State Fault Refusal :=
  .next (accessRO (.pktSum 3) a s)

/-- PKT_SUM4, offset 0x088 (R61). -/
def execMmioPktSum4 (a : Access) (s : State) : Host.Outcome State Fault Refusal :=
  .next (accessRO (.pktSum 4) a s)

/-- PKT_SUM5, offset 0x08C (R61). -/
def execMmioPktSum5 (a : Access) (s : State) : Host.Outcome State Fault Refusal :=
  .next (accessRO (.pktSum 5) a s)

/-- PKT_INFO, offset 0x090 (R62). -/
def execMmioPktInfo (a : Access) (s : State) : Host.Outcome State Fault Refusal :=
  .next (accessRO .pktInfo a s)

/-- PKT_DELAY, offset 0x094 (R63). -/
def execMmioPktDelay (a : Access) (s : State) : Host.Outcome State Fault Refusal :=
  .next (accessRO .pktDelay a s)

/-- PKT_IMU_XY, offset 0x098 (R64). -/
def execMmioPktImuXy (a : Access) (s : State) : Host.Outcome State Fault Refusal :=
  .next (accessRO .pktImuXy a s)

/-- PKT_IMU_Z, offset 0x09C (R65). -/
def execMmioPktImuZ (a : Access) (s : State) : Host.Outcome State Fault Refusal :=
  .next (accessRO .pktImuZ a s)

/-- FBUF word k, offset 0x100 + 4k (R66, 20_memory R106). -/
def execMmioFbuf (k : BitVec 4) (a : Access) (s : State) : Host.Outcome State Fault Refusal :=
  .next (accessFbuf k a s)

/-- TABLE entry i, offset 0x400 + 4i (R67, 20_memory R107). -/
def execMmioTable (i : BitVec 8) (a : Access) (s : State) : Host.Outcome State Fault Refusal :=
  .next (accessRO (.table i) a s)

/-- A reserved offset (20_memory R103). -/
def execMmioReserved (_o : Offset) (a : Access) (s : State) : Host.Outcome State Fault Refusal :=
  .next (accessReserved a s)

end Sys2Proof.Machine
end

