-- ==== Sys2Proof/Machine/Dispatch.lean ====
section
/-! DEFINITION. One arm per row of spec/opcode_table.json. -/

namespace Sys2Proof.Machine

open Sys2Proof

def exec (i : Instr) (s : State) : Host.Outcome State Fault Refusal :=
  match i with
  | .nop => Sys2Proof.Machine.execNop s
  | .crcInit => Sys2Proof.Machine.execCrcInit s
  | .crcUpdBit b => Sys2Proof.Machine.execCrcUpdBit b s
  | .crcUpdTbl b => Sys2Proof.Machine.execCrcUpdTbl b s
  | .tblBuild => Sys2Proof.Machine.execTblBuild s
  | .crcCheck => Sys2Proof.Machine.execCrcCheck s
  | .sync => Sys2Proof.Machine.execSync s
  | .decode => Sys2Proof.Machine.execDecode s
  | .frame => Sys2Proof.Machine.execFrame s
  | .decodeBuf => Sys2Proof.Machine.execDecodeBuf s
  | .mmioCmd a => Sys2Proof.Machine.execMmioCmd a s
  | .mmioStatus a => Sys2Proof.Machine.execMmioStatus a s
  | .mmioCrcCfg a => Sys2Proof.Machine.execMmioCrcCfg a s
  | .mmioCrcPoly a => Sys2Proof.Machine.execMmioCrcPoly a s
  | .mmioCrcResult a => Sys2Proof.Machine.execMmioCrcResult a s
  | .mmioCrcCur a => Sys2Proof.Machine.execMmioCrcCur a s
  | .mmioCrcCurPoly a => Sys2Proof.Machine.execMmioCrcCurPoly a s
  | .mmioChkPayload a => Sys2Proof.Machine.execMmioChkPayload a s
  | .mmioChkSum a => Sys2Proof.Machine.execMmioChkSum a s
  | .mmioChkRem a => Sys2Proof.Machine.execMmioChkRem a s
  | .mmioSyncCfg a => Sys2Proof.Machine.execMmioSyncCfg a s
  | .mmioSensorNum a => Sys2Proof.Machine.execMmioSensorNum a s
  | .mmioHdrInfo a => Sys2Proof.Machine.execMmioHdrInfo a s
  | .mmioCrcRx a => Sys2Proof.Machine.execMmioCrcRx a s
  | .mmioCrcCalc a => Sys2Proof.Machine.execMmioCrcCalc a s
  | .mmioTblInfo a => Sys2Proof.Machine.execMmioTblInfo a s
  | .mmioTblPoly a => Sys2Proof.Machine.execMmioTblPoly a s
  | .mmioPktDiff0 a => Sys2Proof.Machine.execMmioPktDiff0 a s
  | .mmioPktDiff1 a => Sys2Proof.Machine.execMmioPktDiff1 a s
  | .mmioPktDiff2 a => Sys2Proof.Machine.execMmioPktDiff2 a s
  | .mmioPktDiff3 a => Sys2Proof.Machine.execMmioPktDiff3 a s
  | .mmioPktDiff4 a => Sys2Proof.Machine.execMmioPktDiff4 a s
  | .mmioPktDiff5 a => Sys2Proof.Machine.execMmioPktDiff5 a s
  | .mmioPktSum0 a => Sys2Proof.Machine.execMmioPktSum0 a s
  | .mmioPktSum1 a => Sys2Proof.Machine.execMmioPktSum1 a s
  | .mmioPktSum2 a => Sys2Proof.Machine.execMmioPktSum2 a s
  | .mmioPktSum3 a => Sys2Proof.Machine.execMmioPktSum3 a s
  | .mmioPktSum4 a => Sys2Proof.Machine.execMmioPktSum4 a s
  | .mmioPktSum5 a => Sys2Proof.Machine.execMmioPktSum5 a s
  | .mmioPktInfo a => Sys2Proof.Machine.execMmioPktInfo a s
  | .mmioPktDelay a => Sys2Proof.Machine.execMmioPktDelay a s
  | .mmioPktImuXy a => Sys2Proof.Machine.execMmioPktImuXy a s
  | .mmioPktImuZ a => Sys2Proof.Machine.execMmioPktImuZ a s
  | .mmioFbuf k a => Sys2Proof.Machine.execMmioFbuf k a s
  | .mmioTable j a => Sys2Proof.Machine.execMmioTable j a s
  | .mmioReserved o a => Sys2Proof.Machine.execMmioReserved o a s
  | .illegalCmd w => Sys2Proof.Machine.execIllegalCmd w s

end Sys2Proof.Machine
end

