-- ==== Sys2Proof/Machine/Fetch.lean ====
section
/-! DEFINITION. Whose turn it is (spec/00_scope.md R19, spec/20_memory.md R108, R115; log 1, log 2): the agenda says
which agent moves next; when it is empty, the sequencer does. -/

namespace Sys2Proof.Machine

open Sys2Proof

/-- A turn: an instruction to execute, or a state already settled. -/
inductive Turn where
  | run (i : Instr) (s : State)
  | settled (s : State)
  deriving DecidableEq, Repr

/-- The rest of the agenda after its first event. -/
def withAgenda (l : List Event) (s : State) : State := { s with agenda := l }

/-- A host access: its instruction, or a bus error, which changes no FSCORE state (20_memory R102; log 11). -/
def hostTurn (c : Code) (s : State) : Turn :=
  match decode c with
  | .ok i => .run i s
  | .error _ => .settled (answer .error s)

/-- The event is the host's own. -/
def Event.ofHost : Event → Bool
  | .host _ => true
  | .poll => true
  | .sequencer => false
  | .byteSource _ => false
  | .reset _ => false

/-- `poll` reads STATUS and, while BUSY is 1, reads it again after one event of another agent: the next event of the agenda
if that is no access of the host, else a step of the sequencer (30_encoding R153; log 15). -/
def pollAgenda (busy : Bool) (rest : List Event) : List Event :=
  if busy then
    match rest with
    | [] => [.sequencer, .poll]
    | e :: l => if e.ofHost then .sequencer :: .poll :: e :: l else e :: .poll :: l
  else rest

/-- The next turn. An empty agenda leaves the sequencer running (70_reset R362: it takes its next step eventually). -/
def turn (s : State) : Turn :=
  match s.agenda with
  | [] => .settled (sequencerStep s)
  | .host c :: rest => hostTurn c (withAgenda rest s)
  | .poll :: rest => .run (.mmioStatus .read) (withAgenda (pollAgenda s.busy rest) s)
  | .sequencer :: rest => .settled (sequencerStep (withAgenda rest s))
  | .byteSource a :: rest => .settled (portAnswer a (withAgenda rest s))
  | .reset takesByte :: rest => .settled (platformReset takesByte (withAgenda rest s))

/-- The host's next access is c. -/
def withHostAccess (c : Code) (s : State) : State := withAgenda (.host c :: s.agenda) s

/-- The host's next access is the one a word of the opcode table stands for, if there is one. -/
def withTableWord (nbits w : Nat) (s : State) : State :=
  match tableCode nbits w with
  | some c => withHostAccess c s
  | none => s

end Sys2Proof.Machine
end

