-- ==== Sys2Proof/Machine/Step.lean ====
section
/-! DEFINITION. One step of the machine. -/

namespace Sys2Proof.Machine

open Sys2Proof

/-- One step: the next turn, its instruction executed. -/
def step (s : State) : Host.Outcome State Fault Refusal :=
  match turn s with
  | .run i t => exec i t
  | .settled t => .next t

/-- s with the access of an opcode-table word as the host's next access (log 1, log 8). -/
def State.withFetchWord (s : State) (nbits w : Nat) : State := withTableWord nbits w s

end Sys2Proof.Machine
end

