-- ==== Sys2Proof/Laws/PerInstr.lean ====
section
/-! SUPPORT. Per-instruction laws: the family RoundTrip says that decoding the encoded form of a well-formed instruction
gives the instruction back (spec/30_encoding.md R140 to R147, spec/10_state.md R33). -/

namespace Sys2Proof

/-- The fixed registers lie below 0x100 and not at reserved offsets (10_state R33). -/
theorem mmioRows_fixed : ∀ p ∈ mmioRows, reservedOffset p.1 = false ∧ p.1.toNat < 0x100 := by decide

/-- An offset in a register file, or a reserved one, is at no fixed register. -/
theorem mmioRows_lookup_none {o : Offset} (h : reservedOffset o = true ∨ 0x100 ≤ o.toNat) :
    mmioRows.lookup o = none := by
  rw [List.lookup_eq_none_iff]
  intro p hp
  obtain ⟨h1, h2⟩ := mmioRows_fixed p hp
  rw [bne_iff_ne]
  rintro rfl
  rcases h with h | h
  · rw [h1] at h; exact absurd h (by decide)
  · omega

/-- The decoder reads an aligned 32-bit access by its offset. -/
theorem decode_mmioCode {o : Offset} (h : o.toNat % 4 = 0) (a : Access) :
    decode (mmioCode o a) = .ok (decodeOffset o a) := by
  simp [decode, mmioCode, h]

theorem decodeOffset_fbuf {o : Offset} (h1 : 0x100 ≤ o.toNat) (h2 : o.toNat ≤ 0x130) (a : Access) :
    decodeOffset o a = .mmioFbuf (o.extractLsb' 2 4) a := by
  simp [decodeOffset, mmioRows_lookup_none (.inr h1), h1, h2]

theorem decodeOffset_table {o : Offset} (h1 : 0x400 ≤ o.toNat) (h2 : o.toNat ≤ 0x7FC) (a : Access) :
    decodeOffset o a = .mmioTable (o.extractLsb' 2 8) a := by
  have h3 : ¬ o.toNat ≤ 0x130 := by omega
  simp [decodeOffset, mmioRows_lookup_none (o := o) (.inr (by omega)), h1, h2, h3]

/-- What a reserved offset is, in numbers (10_state R33). -/
theorem reservedOffset_iff (o : Offset) :
    reservedOffset o = true ↔
      o.toNat % 4 = 0 ∧
        ((0x044 ≤ o.toNat ∧ o.toNat ≤ 0x05C) ∨ (0x0A0 ≤ o.toNat ∧ o.toNat ≤ 0x0FC) ∨
          (0x134 ≤ o.toNat ∧ o.toNat ≤ 0x3FC) ∨ 0x800 ≤ o.toNat) := by
  simp [reservedOffset, or_assoc]

theorem decodeOffset_reserved {o : Offset} (h : reservedOffset o = true) (a : Access) :
    decodeOffset o a = .mmioReserved o a := by
  have hn := (reservedOffset_iff o).1 h
  have h1 : ¬ (0x100 ≤ o.toNat ∧ o.toNat ≤ 0x130) := by omega
  have h2 : ¬ (0x400 ≤ o.toNat ∧ o.toNat ≤ 0x7FC) := by omega
  simp only [decodeOffset, mmioRows_lookup_none (.inl h), if_neg h1, if_neg h2]

/-! ### Fields of a command word -/

theorem rsvField_commandWord (op : Opcode) (b : Byte) : rsvField (commandWord op b) = 0 := by
  apply BitVec.eq_of_getLsbD_eq
  intro i hi
  simp only [rsvField, commandWord, BitVec.getLsbD_extractLsb', BitVec.getLsbD_append]
  interval_cases i <;> simp

theorem immField_commandWord (op : Opcode) (b : Byte) : immField (commandWord op b) = b := by
  apply BitVec.eq_of_getLsbD_eq
  intro i hi
  simp only [immField, commandWord, BitVec.getLsbD_extractLsb', BitVec.getLsbD_append]
  interval_cases i <;> simp

theorem opcField_commandWord (op : Opcode) (b : Byte) : opcField (commandWord op b) = op.number := by
  apply BitVec.eq_of_getLsbD_eq
  intro i hi
  simp only [opcField, commandWord, BitVec.getLsbD_extractLsb', BitVec.getLsbD_append]
  interval_cases i <;> simp

theorem opcodeOf_number (op : Opcode) : opcodeOf op.number = some op := by cases op <;> rfl

/-- The command a well-formed command word decodes to. -/
theorem decodeCommand_commandWord (op : Opcode) (b : Byte) :
    decodeCommand (commandWord op b) = (commandOf op b).getD (.illegal (commandWord op b)) := by
  simp [decodeCommand, rsvField_commandWord, opcField_commandWord, immField_commandWord, opcodeOf_number]

/-- The numbers of the opcode map are 0x00 to 0x09 (30_encoding R143). -/
theorem opcodeOf_isSome (n : BitVec 8) : (opcodeOf n).isSome = decide (n.toNat < 0x0A) := by
  revert n; decide

theorem opcodeOf_upd (n : BitVec 8) (op : Opcode) (h : opcodeOf n = some op) : op.number = n := by
  revert n op
  intro n
  revert n
  decide

/-- The decoder calls illegal exactly the words of R146. -/
theorem decodeCommand_illegal {w : Word} (h : illegalWord w = true) : decodeCommand w = .illegal w := by
  unfold decodeCommand
  by_cases hr : rsvField w = 0
  · rw [if_neg (by simp [hr])]
    cases ho : opcodeOf (opcField w) with
    | none => rfl
    | some op =>
      have hlt : (opcField w).toNat < 0x0A := by
        have := opcodeOf_isSome (opcField w)
        rw [ho] at this
        simpa using this.symm
      have hn := opcodeOf_upd _ _ ho
      have hw : (immField w != 0 && opcField w != 0x02 && opcField w != 0x03) = true := by
        simp only [illegalWord] at h
        have h1 : (w.extractLsb' 16 16 != 0) = false := by
          rw [bne_eq_false_iff_eq]; exact hr
        have h2 : decide (0x0A ≤ (w.extractLsb' 0 8).toNat) = false := by
          simpa [opcField] using hlt
        rw [h1, h2] at h
        simpa [opcField, immField] using h
      simp only [Bool.and_eq_true, bne_iff_ne] at hw
      obtain ⟨⟨hi, h2⟩, h3⟩ := hw
      rw [← hn] at h2 h3
      cases op <;> simp_all [commandOf, Opcode.number]
  · rw [if_pos hr]

end Sys2Proof

/-! ### The family RoundTrip -/

/-- Decoding the encoded form of i gives i. -/
def Sys2Proof.Laws.RoundTrip.Statement (i : Sys2Proof.Instr) : Prop :=
  i.wellFormed = true → Sys2Proof.decode (Sys2Proof.encode i) = .ok i

/-- A command's encoded form decodes to the command. -/
theorem Sys2Proof.Laws.RoundTrip.of_command {op : Sys2Proof.Opcode} {b : Sys2Proof.Byte} {c : Sys2Proof.Command}
    (h : Sys2Proof.commandOf op b = some c) :
    Sys2Proof.decode (.cmdw (Sys2Proof.commandWord op b)) = .ok c.toInstr := by
  simp [Sys2Proof.decode, Sys2Proof.decodeCommand_commandWord, h]

theorem Sys2Proof.Laws.RoundTrip.nop : Sys2Proof.Laws.RoundTrip.Statement .nop :=
  fun _ => Sys2Proof.Laws.RoundTrip.of_command (op := .nop) (b := 0) (c := .nop) rfl

theorem Sys2Proof.Laws.RoundTrip.crcInit : Sys2Proof.Laws.RoundTrip.Statement .crcInit :=
  fun _ => Sys2Proof.Laws.RoundTrip.of_command (op := .crcInit) (b := 0) (c := .crcInit) rfl

theorem Sys2Proof.Laws.RoundTrip.crcUpdBit (b : Sys2Proof.Byte) : Sys2Proof.Laws.RoundTrip.Statement (.crcUpdBit b) :=
  fun _ => Sys2Proof.Laws.RoundTrip.of_command (op := .crcUpdBit) (b := b) (c := (.crcUpdBit b)) rfl

theorem Sys2Proof.Laws.RoundTrip.crcUpdTbl (b : Sys2Proof.Byte) : Sys2Proof.Laws.RoundTrip.Statement (.crcUpdTbl b) :=
  fun _ => Sys2Proof.Laws.RoundTrip.of_command (op := .crcUpdTbl) (b := b) (c := (.crcUpdTbl b)) rfl

theorem Sys2Proof.Laws.RoundTrip.tblBuild : Sys2Proof.Laws.RoundTrip.Statement .tblBuild :=
  fun _ => Sys2Proof.Laws.RoundTrip.of_command (op := .tblBuild) (b := 0) (c := .tblBuild) rfl

theorem Sys2Proof.Laws.RoundTrip.crcCheck : Sys2Proof.Laws.RoundTrip.Statement .crcCheck :=
  fun _ => Sys2Proof.Laws.RoundTrip.of_command (op := .crcCheck) (b := 0) (c := .crcCheck) rfl

theorem Sys2Proof.Laws.RoundTrip.sync : Sys2Proof.Laws.RoundTrip.Statement .sync :=
  fun _ => Sys2Proof.Laws.RoundTrip.of_command (op := .sync) (b := 0) (c := .sync) rfl

theorem Sys2Proof.Laws.RoundTrip.decode : Sys2Proof.Laws.RoundTrip.Statement .decode :=
  fun _ => Sys2Proof.Laws.RoundTrip.of_command (op := .decode) (b := 0) (c := .decode) rfl

theorem Sys2Proof.Laws.RoundTrip.frame : Sys2Proof.Laws.RoundTrip.Statement .frame :=
  fun _ => Sys2Proof.Laws.RoundTrip.of_command (op := .frame) (b := 0) (c := .frame) rfl

theorem Sys2Proof.Laws.RoundTrip.decodeBuf : Sys2Proof.Laws.RoundTrip.Statement .decodeBuf :=
  fun _ => Sys2Proof.Laws.RoundTrip.of_command (op := .decodeBuf) (b := 0) (c := .decodeBuf) rfl

theorem Sys2Proof.Laws.RoundTrip.mmioCmd (a : Sys2Proof.Access) :
    Sys2Proof.Laws.RoundTrip.Statement (.mmioCmd a) := by
  intro _; with_unfolding_all rfl

theorem Sys2Proof.Laws.RoundTrip.mmioStatus (a : Sys2Proof.Access) :
    Sys2Proof.Laws.RoundTrip.Statement (.mmioStatus a) := by
  intro _; with_unfolding_all rfl

theorem Sys2Proof.Laws.RoundTrip.mmioCrcCfg (a : Sys2Proof.Access) :
    Sys2Proof.Laws.RoundTrip.Statement (.mmioCrcCfg a) := by
  intro _; with_unfolding_all rfl

theorem Sys2Proof.Laws.RoundTrip.mmioCrcPoly (a : Sys2Proof.Access) :
    Sys2Proof.Laws.RoundTrip.Statement (.mmioCrcPoly a) := by
  intro _; with_unfolding_all rfl

theorem Sys2Proof.Laws.RoundTrip.mmioCrcResult (a : Sys2Proof.Access) :
    Sys2Proof.Laws.RoundTrip.Statement (.mmioCrcResult a) := by
  intro _; with_unfolding_all rfl

theorem Sys2Proof.Laws.RoundTrip.mmioCrcCur (a : Sys2Proof.Access) :
    Sys2Proof.Laws.RoundTrip.Statement (.mmioCrcCur a) := by
  intro _; with_unfolding_all rfl

theorem Sys2Proof.Laws.RoundTrip.mmioCrcCurPoly (a : Sys2Proof.Access) :
    Sys2Proof.Laws.RoundTrip.Statement (.mmioCrcCurPoly a) := by
  intro _; with_unfolding_all rfl

theorem Sys2Proof.Laws.RoundTrip.mmioChkPayload (a : Sys2Proof.Access) :
    Sys2Proof.Laws.RoundTrip.Statement (.mmioChkPayload a) := by
  intro _; with_unfolding_all rfl

theorem Sys2Proof.Laws.RoundTrip.mmioChkSum (a : Sys2Proof.Access) :
    Sys2Proof.Laws.RoundTrip.Statement (.mmioChkSum a) := by
  intro _; with_unfolding_all rfl

theorem Sys2Proof.Laws.RoundTrip.mmioChkRem (a : Sys2Proof.Access) :
    Sys2Proof.Laws.RoundTrip.Statement (.mmioChkRem a) := by
  intro _; with_unfolding_all rfl

theorem Sys2Proof.Laws.RoundTrip.mmioSyncCfg (a : Sys2Proof.Access) :
    Sys2Proof.Laws.RoundTrip.Statement (.mmioSyncCfg a) := by
  intro _; with_unfolding_all rfl

theorem Sys2Proof.Laws.RoundTrip.mmioSensorNum (a : Sys2Proof.Access) :
    Sys2Proof.Laws.RoundTrip.Statement (.mmioSensorNum a) := by
  intro _; with_unfolding_all rfl

theorem Sys2Proof.Laws.RoundTrip.mmioHdrInfo (a : Sys2Proof.Access) :
    Sys2Proof.Laws.RoundTrip.Statement (.mmioHdrInfo a) := by
  intro _; with_unfolding_all rfl

theorem Sys2Proof.Laws.RoundTrip.mmioCrcRx (a : Sys2Proof.Access) :
    Sys2Proof.Laws.RoundTrip.Statement (.mmioCrcRx a) := by
  intro _; with_unfolding_all rfl

theorem Sys2Proof.Laws.RoundTrip.mmioCrcCalc (a : Sys2Proof.Access) :
    Sys2Proof.Laws.RoundTrip.Statement (.mmioCrcCalc a) := by
  intro _; with_unfolding_all rfl

theorem Sys2Proof.Laws.RoundTrip.mmioTblInfo (a : Sys2Proof.Access) :
    Sys2Proof.Laws.RoundTrip.Statement (.mmioTblInfo a) := by
  intro _; with_unfolding_all rfl

theorem Sys2Proof.Laws.RoundTrip.mmioTblPoly (a : Sys2Proof.Access) :
    Sys2Proof.Laws.RoundTrip.Statement (.mmioTblPoly a) := by
  intro _; with_unfolding_all rfl

theorem Sys2Proof.Laws.RoundTrip.mmioPktDiff0 (a : Sys2Proof.Access) :
    Sys2Proof.Laws.RoundTrip.Statement (.mmioPktDiff0 a) := by
  intro _; with_unfolding_all rfl

theorem Sys2Proof.Laws.RoundTrip.mmioPktDiff1 (a : Sys2Proof.Access) :
    Sys2Proof.Laws.RoundTrip.Statement (.mmioPktDiff1 a) := by
  intro _; with_unfolding_all rfl

theorem Sys2Proof.Laws.RoundTrip.mmioPktDiff2 (a : Sys2Proof.Access) :
    Sys2Proof.Laws.RoundTrip.Statement (.mmioPktDiff2 a) := by
  intro _; with_unfolding_all rfl

theorem Sys2Proof.Laws.RoundTrip.mmioPktDiff3 (a : Sys2Proof.Access) :
    Sys2Proof.Laws.RoundTrip.Statement (.mmioPktDiff3 a) := by
  intro _; with_unfolding_all rfl

theorem Sys2Proof.Laws.RoundTrip.mmioPktDiff4 (a : Sys2Proof.Access) :
    Sys2Proof.Laws.RoundTrip.Statement (.mmioPktDiff4 a) := by
  intro _; with_unfolding_all rfl

theorem Sys2Proof.Laws.RoundTrip.mmioPktDiff5 (a : Sys2Proof.Access) :
    Sys2Proof.Laws.RoundTrip.Statement (.mmioPktDiff5 a) := by
  intro _; with_unfolding_all rfl

theorem Sys2Proof.Laws.RoundTrip.mmioPktSum0 (a : Sys2Proof.Access) :
    Sys2Proof.Laws.RoundTrip.Statement (.mmioPktSum0 a) := by
  intro _; with_unfolding_all rfl

theorem Sys2Proof.Laws.RoundTrip.mmioPktSum1 (a : Sys2Proof.Access) :
    Sys2Proof.Laws.RoundTrip.Statement (.mmioPktSum1 a) := by
  intro _; with_unfolding_all rfl

theorem Sys2Proof.Laws.RoundTrip.mmioPktSum2 (a : Sys2Proof.Access) :
    Sys2Proof.Laws.RoundTrip.Statement (.mmioPktSum2 a) := by
  intro _; with_unfolding_all rfl

theorem Sys2Proof.Laws.RoundTrip.mmioPktSum3 (a : Sys2Proof.Access) :
    Sys2Proof.Laws.RoundTrip.Statement (.mmioPktSum3 a) := by
  intro _; with_unfolding_all rfl

theorem Sys2Proof.Laws.RoundTrip.mmioPktSum4 (a : Sys2Proof.Access) :
    Sys2Proof.Laws.RoundTrip.Statement (.mmioPktSum4 a) := by
  intro _; with_unfolding_all rfl

theorem Sys2Proof.Laws.RoundTrip.mmioPktSum5 (a : Sys2Proof.Access) :
    Sys2Proof.Laws.RoundTrip.Statement (.mmioPktSum5 a) := by
  intro _; with_unfolding_all rfl

theorem Sys2Proof.Laws.RoundTrip.mmioPktInfo (a : Sys2Proof.Access) :
    Sys2Proof.Laws.RoundTrip.Statement (.mmioPktInfo a) := by
  intro _; with_unfolding_all rfl

theorem Sys2Proof.Laws.RoundTrip.mmioPktDelay (a : Sys2Proof.Access) :
    Sys2Proof.Laws.RoundTrip.Statement (.mmioPktDelay a) := by
  intro _; with_unfolding_all rfl

theorem Sys2Proof.Laws.RoundTrip.mmioPktImuXy (a : Sys2Proof.Access) :
    Sys2Proof.Laws.RoundTrip.Statement (.mmioPktImuXy a) := by
  intro _; with_unfolding_all rfl

theorem Sys2Proof.Laws.RoundTrip.mmioPktImuZ (a : Sys2Proof.Access) :
    Sys2Proof.Laws.RoundTrip.Statement (.mmioPktImuZ a) := by
  intro _; with_unfolding_all rfl

theorem Sys2Proof.Laws.RoundTrip.mmioFbuf (k : BitVec 4) (a : Sys2Proof.Access) :
    Sys2Proof.Laws.RoundTrip.Statement (.mmioFbuf k a) := by
  intro h
  have hk : k.toNat ≤ 12 := by simpa [Sys2Proof.Instr.wellFormed] using h
  have ho : ((0x100 : BitVec 12) + 4 * k.setWidth 12).toNat = 0x100 + 4 * k.toNat := by
    simp [BitVec.toNat_add, BitVec.toNat_mul]; omega
  have hx : ((0x100 : BitVec 12) + 4 * k.setWidth 12).extractLsb' 2 4 = k := by
    apply BitVec.eq_of_toNat_eq
    rw [BitVec.extractLsb'_toNat, ho, Nat.shiftRight_eq_div_pow]
    omega
  show Sys2Proof.decode (Sys2Proof.mmioCode (0x100 + 4 * k.setWidth 12) a) = _
  rw [Sys2Proof.decode_mmioCode (by omega), Sys2Proof.decodeOffset_fbuf (by omega) (by omega), hx]

theorem Sys2Proof.Laws.RoundTrip.mmioTable (i : BitVec 8) (a : Sys2Proof.Access) :
    Sys2Proof.Laws.RoundTrip.Statement (.mmioTable i a) := by
  intro _
  have hi := i.isLt
  have ho : ((0x400 : BitVec 12) + 4 * i.setWidth 12).toNat = 0x400 + 4 * i.toNat := by
    simp [BitVec.toNat_add, BitVec.toNat_mul]; omega
  have hx : ((0x400 : BitVec 12) + 4 * i.setWidth 12).extractLsb' 2 8 = i := by
    apply BitVec.eq_of_toNat_eq
    rw [BitVec.extractLsb'_toNat, ho, Nat.shiftRight_eq_div_pow]
    omega
  show Sys2Proof.decode (Sys2Proof.mmioCode (0x400 + 4 * i.setWidth 12) a) = _
  rw [Sys2Proof.decode_mmioCode (by omega), Sys2Proof.decodeOffset_table (by omega) (by omega), hx]

theorem Sys2Proof.Laws.RoundTrip.mmioReserved (o : Sys2Proof.Offset) (a : Sys2Proof.Access) :
    Sys2Proof.Laws.RoundTrip.Statement (.mmioReserved o a) := by
  intro h
  have h : Sys2Proof.reservedOffset o = true := h
  show Sys2Proof.decode (Sys2Proof.mmioCode o a) = _
  rw [Sys2Proof.decode_mmioCode ((Sys2Proof.reservedOffset_iff o).1 h).1, Sys2Proof.decodeOffset_reserved h]

theorem Sys2Proof.Laws.RoundTrip.illegalCmd (w : Sys2Proof.Word) :
    Sys2Proof.Laws.RoundTrip.Statement (.illegalCmd w) := by
  intro h
  have h : Sys2Proof.illegalWord w = true := h
  show Sys2Proof.decode (.cmdw w) = _
  simp [Sys2Proof.decode, Sys2Proof.decodeCommand_illegal h, Sys2Proof.Command.toInstr]
end

