-- ==== Sys2Proof/Machine/HostProgram.lean ====
section
/-! DEFINITION. The host's side: bus addresses of the window (spec/20_memory.md R100) and host programs
(spec/30_encoding.md R152, R153). -/

namespace Sys2Proof.Machine

open Sys2Proof

/-! ### The window in the host's address space -/

/-- The bus address of an offset (R100). -/
def busAddress (o : Offset) : Nat := Config.base + o.toNat

/-- The offset a bus address reaches, if the address lies in the window (R100). -/
def windowOffset (addr : Nat) : Option Offset :=
  if Config.base ≤ addr ∧ addr < Config.base + 0x1000 then some (BitVec.ofNat 12 (addr - Config.base)) else none

/-- `MemRead(addr, size)` and `MemWrite(addr, size, v)` (00_scope R15): the access FSCORE sees, if it is addressed. -/
def busAccess (addr : Nat) (size : AccessSize) (a : Access) : Option HostAccess :=
  (windowOffset addr).map fun o => { offset := o, size := size, access := a }

/-! ### Host programs -/

/-- The lines of a host program and the pseudo-instructions (R152, R153). `cmd m b` has b = 0 where the line omits it. -/
inductive HostLine where
  | wr (r : Reg) (v : Word)
  | rd (r : Reg)
  | cmd (m : Opcode) (b : Byte)
  | poll
  | run (m : Opcode)
  | crcBytes (bs : List Byte)
  | crcBytesTbl (bs : List Byte)
  | loadFbuf (B : Vector Byte 51)
  | expect (r : Reg) (v : Word)
  deriving DecidableEq, Repr

/-- `wr REG, v` (R152). -/
def writeLine (r : Reg) (v : Word) : Event := .host (mmioCode r.offset (.write v))

/-- `rd REG` (R152). -/
def readLine (r : Reg) : Event := .host (mmioCode r.offset .read)

/-- `cmd MNEMONIC, b` (R152): a write of the command word to CMD. -/
def cmdLine (m : Opcode) (b : Byte) : Event := writeLine .cmd (commandWord m b)

/-- Word k of a body B as `load_fbuf` writes it, with the byte after the last one 0x00 (R153). -/
def bodyWord (B : Vector Byte 51) (k : Nat) : Word :=
  le32 (B.toList.getD (4 * k) 0) (B.toList.getD (4 * k + 1) 0) (B.toList.getD (4 * k + 2) 0) (B.toList.getD (4 * k + 3) 0)

/-- The expansion of a line (R152, R153). `expect` reads its register; the value it expects has no effect on FSCORE. -/
def HostLine.expand : HostLine → List Event
  | .wr r v => [writeLine r v]
  | .rd r => [readLine r]
  | .cmd m b => [cmdLine m b]
  | .poll => [.poll]
  | .run m => [cmdLine m 0, .poll]
  | .crcBytes bs => bs.map (cmdLine .crcUpdBit)
  | .crcBytesTbl bs => bs.map (cmdLine .crcUpdTbl)
  | .loadFbuf B => (List.finRange 13).map fun k => writeLine (.fbuf k) (bodyWord B k)
  | .expect r _ => [readLine r]

/-- The byte source's steps that deliver a stream of answers (20_memory R111, R112). -/
def deliver (l : List PortAnswer) : List Event := l.map .byteSource

/-- A host program as an agenda. -/
def expandProgram (p : List HostLine) : List Event := p.flatMap HostLine.expand

end Sys2Proof.Machine
end

