-- ==== Sys2Proof/Machine/WholeCommand.lean ====
section
/-! DEFINITION. The long commands' rules run in one go, as their pseudocode reads (spec/40_crc_engine.md R185, R205;
spec/41_frame_sync.md R232; spec/42_packet_decoder.md R266 to R269): what the sequencer's steps must add up to. A
function of the port answers `none` where the byte source stops answering (spec/20_memory.md R113). -/

namespace Sys2Proof.Machine

open Sys2Proof

/-- The sequencer takes n steps. -/
def runSequencer : Nat → State → State
  | 0, s => s
  | n + 1, s => runSequencer n (sequencerStep s)

/-- TABLE[0..n-1] by R185's loop. -/
def fillTable (W P : Nat) : Nat → Memory → Memory
  | 0, m => m
  | n + 1, m => (fillTable W P n m).writeWord n (tableValue W P n)

/-- TBL_BUILD after its acceptance (R185). -/
def wholeTblBuild (W : BitVec 6) (P : Word) (s : State) : State :=
  finish .ok
    { s with
      table := fillTable W.toNat P.toNat Config.fscore.tblEntries s.table
      tblWidth := W, tblPoly := P, tblValid := true }

/-- CRC_CHECK after its acceptance (R205). -/
def wholeCrcCheck (W : BitVec 6) (P payload chk : Word) (s : State) : State :=
  let rem := longDivide payload.toNat chk.toNat W.toNat P.toNat Config.fscore.hdrCheckVariant
  finish (if rem = 0 then .ok else .checksumMismatch) { s with chkRem := BitVec.ofNat 32 rem, chkPass := rem == 0 }

/-- How a search ended: its code, HDR_INFO, and the answers left. -/
structure SearchEnd where
  code : ErrCode
  hdr : HdrInfo
  port : List PortAnswer
  deriving DecidableEq, Repr

/-- HDR_INFO after a search that found header h (R236). -/
def foundInfo (h : Byte) (fails reads : Nat) : HdrInfo :=
  { chk := h.extractLsb' 0 4, seq := h.extractLsb' 4 4, fails := BitVec.ofNat 8 fails, reads := BitVec.ofNat 8 reads }

/-- The loop of `SyncCore` (R232) over the byte source's answers. -/
def scan (budget : Nat) (old : HdrInfo) (reads fails : Nat) : List PortAnswer → Option SearchEnd
  | [] =>
    if reads < budget then none
    else some ⟨.syncTimeout, { old with fails := BitVec.ofNat 8 fails, reads := BitVec.ofNat 8 reads }, []⟩
  | a :: rest =>
    if reads < budget then
      if a = .byte Config.fscore.marker then
        match rest with
        | [] => none
        | .timeout :: rest => scan budget old (reads + 1) (fails + 1) rest
        | .byte h :: rest =>
          if hdrCheck h then some ⟨.ok, foundInfo h fails (reads + 1), rest⟩
          else scan budget old (reads + 1) (fails + 1) rest
      else scan budget old (reads + 1) fails rest
    else some ⟨.syncTimeout, { old with fails := BitVec.ofNat 8 fails, reads := BitVec.ofNat 8 reads }, a :: rest⟩

/-- `SyncCore()` (R232): its code, and the state it leaves. -/
def wholeSearch (s : State) : Option (ErrCode × State) :=
  (scan s.scanMax.toNat s.hdr 0 0 s.port).map fun e =>
    (e.code,
      { s with
        syncState := if e.code = .ok then .synchronized else .searching
        hdr := e.hdr
        port := e.port })

/-- SYNC after its acceptance (R232). -/
def wholeSync (s : State) : Option State := (wholeSearch s).map fun (code, t) => finish code t

/-- `ReadBody()` from byte k on, n bytes to go (R268): its code, and the state it leaves. -/
def readBody : Nat → Nat → State → Option (ErrCode × State)
  | 0, _, s => some (.ok, s)
  | n + 1, k, s =>
    match portRead s with
    | none => none
    | some (.timeout, s) => some (.frameShort, s)
    | some (.byte b, s) => readBody n (k + 1) (storeFbuf k b s)

/-- `ReadBody()`, then `DecodeBody()` on a complete body (R267, R269). -/
def wholeBody (s : State) : Option (ErrCode × State) :=
  (readBody Config.fscore.bodyLen 0 s).map fun (code, t) =>
    if code = .ok then (bodyCode t, decodeBody t) else (code, t)

/-- DECODE after its acceptance (R267). -/
def wholeDecode (s : State) : Option State := (wholeBody s).map fun (code, t) => endFrame code t

/-- FRAME after its acceptance (R269). -/
def wholeFrame (s : State) : Option State :=
  match wholeSearch s with
  | none => none
  | some (.ok, t) => wholeDecode t
  | some (code, t) => some (endFrame code t)

end Sys2Proof.Machine
end

