-- ==== Sys2Proof/Safety.lean ====
section
/-! DEFINITION. The terms claims are stated in: registers as instructions, sequences of instructions, and the invariants
of a safe run. -/

namespace Sys2Proof

/-! ### Registers as instructions -/

/-- The instruction that accesses a register (10_state R33). -/
def Reg.instr : Reg → Access → Instr
  | .cmd, a => .mmioCmd a
  | .status, a => .mmioStatus a
  | .crcCfg, a => .mmioCrcCfg a
  | .crcPoly, a => .mmioCrcPoly a
  | .crcResult, a => .mmioCrcResult a
  | .crcCur, a => .mmioCrcCur a
  | .crcCurPoly, a => .mmioCrcCurPoly a
  | .chkPayload, a => .mmioChkPayload a
  | .chkSum, a => .mmioChkSum a
  | .chkRem, a => .mmioChkRem a
  | .syncCfg, a => .mmioSyncCfg a
  | .sensorNum, a => .mmioSensorNum a
  | .hdrInfo, a => .mmioHdrInfo a
  | .crcRx, a => .mmioCrcRx a
  | .crcCalc, a => .mmioCrcCalc a
  | .tblInfo, a => .mmioTblInfo a
  | .tblPoly, a => .mmioTblPoly a
  | .pktDiff 0, a => .mmioPktDiff0 a
  | .pktDiff 1, a => .mmioPktDiff1 a
  | .pktDiff 2, a => .mmioPktDiff2 a
  | .pktDiff 3, a => .mmioPktDiff3 a
  | .pktDiff 4, a => .mmioPktDiff4 a
  | .pktDiff 5, a => .mmioPktDiff5 a
  | .pktSum 0, a => .mmioPktSum0 a
  | .pktSum 1, a => .mmioPktSum1 a
  | .pktSum 2, a => .mmioPktSum2 a
  | .pktSum 3, a => .mmioPktSum3 a
  | .pktSum 4, a => .mmioPktSum4 a
  | .pktSum 5, a => .mmioPktSum5 a
  | .pktInfo, a => .mmioPktInfo a
  | .pktDelay, a => .mmioPktDelay a
  | .pktImuXy, a => .mmioPktImuXy a
  | .pktImuZ, a => .mmioPktImuZ a
  | .fbuf k, a => .mmioFbuf (BitVec.ofNat 4 k.val) a
  | .table i, a => .mmioTable i a

/-- The registers of class RO (10_state R33, R34). -/
def Reg.readOnly : Reg → Bool
  | .cmd | .status | .crcCfg | .crcPoly | .chkPayload | .chkSum | .syncCfg | .sensorNum | .fbuf _ => false
  | .crcResult | .crcCur | .crcCurPoly | .chkRem | .hdrInfo | .crcRx | .crcCalc | .tblInfo | .tblPoly => true
  | .pktDiff _ | .pktSum _ | .pktInfo | .pktDelay | .pktImuXy | .pktImuZ | .table _ => true

end Sys2Proof

namespace Sys2Proof.Machine

open Sys2Proof

/-! ### Instruction sequences -/

/-- Instructions executed one after another; `none` where one does not give a next state. -/
def runInstrs : List Instr → State → Option State
  | [], s => some s
  | i :: l, s =>
    match exec i s with
    | .next t => runInstrs l t
    | .fault _ => none
    | .refused _ => none

/-- The value of a byte sequence read as one big-endian number. -/
def beValue (B : List Byte) : Nat := B.foldl (fun n b => n <<< 8 ||| b.toNat) 0

/-! ### Invariants -/

/-- The register files are in canonical form, and FBUF has no byte beyond 50 (10_state R66). -/
structure MemoryInv (s : State) : Prop where
  fbuf_wf : s.fbuf.wf
  table_wf : s.table.wf
  fbuf_range : ∀ c ∈ s.fbuf, c.1 < Config.fscore.bodyLen

/-- The latched configuration is legal (10_state R69) and `crc_reg` holds a value of its width (R68); at width 4 the
low nibble of the working register is 0 (40_crc_engine R176). -/
structure EngineInv (s : State) : Prop where
  legal : cfgLegal s.curWidth.toNat s.curPoly.toNat = true
  wide : s.curWidth ≠ 4 → s.crcReg.toNat < 2 ^ s.curWidth.toNat
  narrow : s.curWidth = 4 → s.crcReg.toNat < 256 ∧ s.crcReg.toNat % 16 = 0

/-- Entries 0 to n-1 of the stored table are those of (W, P) (40_crc_engine R186). -/
def tableFilled (s : State) (W P n : Nat) : Prop := ∀ b < n, tableEntry s b = tableValue W P b

/-- A valid table is the whole table of its tag (R186), and a table being built is invalid and right so far (R185). -/
structure TableInv (s : State) : Prop where
  range : ∀ c ∈ s.table, c.1 < 4 * Config.fscore.tblEntries
  valid : s.tblValid = true →
    cfgLegal s.tblWidth.toNat s.tblPoly.toNat = true ∧
      tableFilled s s.tblWidth.toNat s.tblPoly.toNat Config.fscore.tblEntries
  building : ∀ W P i, s.seq = .run (.tblBuild W P i) →
    cfgLegal W.toNat P.toNat = true ∧ i < Config.fscore.tblEntries ∧ s.tblValid = false ∧
      tableFilled s W.toNat P.toNat i

/-- A search in progress: SEARCHING, its budget is SCAN_MAX, and FAILS and READS count within it (41_frame_sync R230,
R232, R236). -/
def searchSane (s : State) (r : SyncRun) : Prop :=
  s.syncState = .searching ∧ r.budget = s.scanMax.toNat ∧ r.reads ≤ r.budget ∧
    match r.pos with
    | .candidate => r.fails ≤ r.reads
    | .header => r.fails < r.reads

/-- A running command's progress is one its rule can reach. -/
def runningSane (s : State) : Running → Prop
  | .tblBuild W P i => cfgLegal W.toNat P.toNat = true ∧ i < Config.fscore.tblEntries ∧ s.tblValid = false
  | .crcCheck W P w => cfgLegal W.toNat P.toNat = true ∧ w < 2 ^ (W.toNat + 32) ∧ s.chkPass = false
  | .sync r => searchSane s r
  | .decode k => k < Config.fscore.bodyLen
  | .frame (.search r) => searchSane s r
  | .frame (.body k) => k < Config.fscore.bodyLen ∧ s.syncState = .synchronized
  | .decodeBuf => True

/-- While a command runs, DONE = 0 and ERR = OK (10_state R38, R44) and its progress is sane; FAILS ≤ READS
(41_frame_sync R236). -/
structure SeqInv (s : State) : Prop where
  running : ∀ c, s.seq = .run c → s.done = false ∧ s.err = .ok ∧ runningSane s c
  fails_le_reads : s.hdr.fails.toNat ≤ s.hdr.reads.toNat

/-- The packet registers hold a packet with a known report code, or still their reset values (10_state R40, R62). -/
structure PacketInv (s : State) : Prop where
  valid : s.pktValid = true → knownReport s.pkt.reportId = true
  invalid : s.pktValid = false → s.pkt = Packet.zero

/-- A safe state. -/
structure Inv (s : State) : Prop where
  memory : MemoryInv s
  engine : EngineInv s
  tableOk : TableInv s
  sequencer : SeqInv s
  packet : PacketInv s

end Sys2Proof.Machine
end

