-- ==== Sys2Proof/Certificates/Slice0/Obligations.lean ====
section
/-! DEFINITION. The statements for the provers. Each docstring names the rules of spec/ it rests on and, where a clause
is the model's choice, the log entry. -/

open Sys2Proof Sys2Proof.Machine

/-! ### The machine and its decoder -/

/-- A host access that decodes to i runs i, with the rest of the agenda left for later (20_memory R108; the agenda is the
model's, log 1). -/
def Obligations.StepRunsDecodedInstruction : Prop :=
  ∀ (s : State) (c : Code) (rest : List Event) (i : Instr),
    s.agenda = .host c :: rest → decode c = .ok i → step s = exec i { s with agenda := rest }

/-- R101, R102, R319: an access of another size, or misaligned, is answered with an error and changes nothing of FSCORE
(the agenda and the answer field are the model's, log 1, log 4; that the machine goes on is log 11). -/
def Obligations.BusErrorChangesNothing : Prop :=
  ∀ (s : State) (a : HostAccess) (rest : List Event),
    s.agenda = .host (.mmio a) :: rest → a.size ≠ .bits32 ∨ a.offset.toNat % 4 ≠ 0 →
      step s = .next { s with agenda := rest, bus := .error }

/-- R331: while IDLE, with no event pending, nothing changes (that an empty agenda leaves the turn to the sequencer is
log 2). -/
def Obligations.IdleChangesNothing : Prop :=
  ∀ s : State, s.agenda = [] → s.seq = .idle → step s = .next s

/-- Every instruction's encoded form decodes to it, for every operand the encoding admits (R140 to R147, 10_state R33). -/
def Obligations.DecodeOfEncode : Prop :=
  ∀ i : Instr, Sys2Proof.Laws.RoundTrip.Statement i

/-- Every encoded form that decodes is the encoded form of the well-formed instruction it decodes to. -/
def Obligations.EncodeOfDecode : Prop :=
  ∀ (c : Code) (i : Instr), decode c = .ok i → encode i = c ∧ i.wellFormed = true

/-- The decoder of command words in mask-and-match form, and illegal exactly for the words of R146 (30_encoding R147, which
the spec marks as derived). -/
def Obligations.CommandWordsByMask : Prop :=
  ∀ w : Word,
    (∀ b, decodeCommand w = .crcUpdBit b ↔ w &&& 0xFFFF00FF = 2 ∧ b = w.extractLsb' 8 8) ∧
    (∀ b, decodeCommand w = .crcUpdTbl b ↔ w &&& 0xFFFF00FF = 3 ∧ b = w.extractLsb' 8 8) ∧
    (decodeCommand w = .nop ↔ w = 0) ∧ (decodeCommand w = .crcInit ↔ w = 1) ∧
    (decodeCommand w = .tblBuild ↔ w = 4) ∧ (decodeCommand w = .crcCheck ↔ w = 5) ∧
    (decodeCommand w = .sync ↔ w = 6) ∧ (decodeCommand w = .decode ↔ w = 7) ∧
    (decodeCommand w = .frame ↔ w = 8) ∧ (decodeCommand w = .decodeBuf ↔ w = 9) ∧
    (∀ v, decodeCommand w = .illegal v ↔ illegalWord w = true ∧ v = w)

/-- Words written out from 30_encoding R154 and 10_state R33 decode to their instructions. -/
def Obligations.WrittenOutWordsDecode : Prop :=
  decodeTableWord 32 0x00003102 = some (.crcUpdBit 0x31) ∧ decodeTableWord 32 0x0000FF03 = some (.crcUpdTbl 0xFF) ∧
  decodeTableWord 32 0x00000004 = some .tblBuild ∧ decodeTableWord 32 0x00000008 = some .frame ∧
  decodeTableWord 32 0x00000104 = some (.illegalCmd 0x104) ∧ decodeTableWord 16 0x08C = some (.mmioPktSum5 .read) ∧
  decodeTableWord 16 0x130 = some (.mmioFbuf 12 .read) ∧ decodeTableWord 16 0x7FC = some (.mmioTable 255 .read) ∧
  decodeTableWord 16 0x134 = some (.mmioReserved 0x134 .read)

/-- R33: every register is accessed at its offset. -/
def Obligations.RegisterMap : Prop :=
  ∀ (r : Reg) (a : Access), decode (mmioCode r.offset a) = .ok (r.instr a)

/-- R100: a bus address in the window reaches the offset it is above P_BASE; no other address reaches FSCORE. -/
def Obligations.WindowAddressing : Prop :=
  (∀ (o : Offset) (a : Access),
    busAccess (Config.base + o.toNat) .bits32 a = some { offset := o, size := .bits32, access := a }) ∧
  (∀ (addr : Nat) (z : AccessSize) (a : Access),
    addr < Config.base ∨ Config.base + 4096 ≤ addr → busAccess addr z a = none) ∧
  Config.base % 4096 = 0

/-! ### Command issue -/

/-- R145: a CMD write executes the command its word decodes to. -/
def Obligations.CmdWriteExecutesDecodedCommand : Prop :=
  ∀ (w : Word) (s : State), exec (.mmioCmd (.write w)) s = exec (decodeCommand w).toInstr s

/-- R71: while BUSY, every command word, and every write of CMD, a configuration register or FBUF, is dropped and sets
OVR, and a STATUS write is performed; writes of read-only registers and reserved offsets have no effect and do not set
OVR, busy or not. -/
def Obligations.WritesWhileBusy : Prop :=
  ∀ (s : State) (v : Word),
    (s.busy = true →
      (∀ c : Command, exec c.toInstr s = .next { s with ovr := true, bus := .done }) ∧
      (∀ r : Reg, r.readOnly = false → r ≠ .status →
        exec (r.instr (.write v)) s = .next { s with ovr := true, bus := .done }) ∧
      exec (.mmioStatus (.write v)) s = .next { s with ovr := s.ovr && !v.getLsbD 4, bus := .done }) ∧
    (∀ r : Reg, r.readOnly = true → exec (r.instr (.write v)) s = .next { s with bus := .done }) ∧
    (∀ o, reservedOffset o = true → exec (.mmioReserved o (.write v)) s = .next { s with bus := .done })

/-- R177: NOP. -/
def Obligations.NopCompletes : Prop :=
  ∀ s : State, s.seq = .idle →
    exec .nop s = .next { s with cmd := 0x00000000, done := true, err := .ok, bus := .done }

/-- R146, R311: an illegal word is stored in CMD and finishes with ILLEGAL_CMD, with no other effect. -/
def Obligations.IllegalWordFinishes : Prop :=
  ∀ (s : State) (w : Word), s.seq = .idle → illegalWord w = true →
    exec (.illegalCmd w) s = .next { s with cmd := w, done := true, err := .illegalCmd, bus := .done } ∧
    exec (.mmioCmd (.write w)) s = exec (.illegalCmd w) s

/-! ### The CRC engine -/

/-- R178: CRC_INIT latches a legal configuration and clears crc_reg, or finishes with CONFIG_ERROR. -/
def Obligations.CrcInitLatchesOrRefuses : Prop :=
  ∀ s : State, s.seq = .idle →
    ((s.crcWidth = 4 ∨ (8 ≤ s.crcWidth.toNat ∧ s.crcWidth.toNat ≤ 32)) ∧ s.crcPoly.toNat < 2 ^ s.crcWidth.toNat →
      exec .crcInit s = .next { s with
        cmd := 0x00000001, done := true, err := .ok, bus := .done
        curWidth := s.crcWidth, curPoly := s.crcPoly, crcReg := 0 }) ∧
    (¬ ((s.crcWidth = 4 ∨ (8 ≤ s.crcWidth.toNat ∧ s.crcWidth.toNat ≤ 32)) ∧ s.crcPoly.toNat < 2 ^ s.crcWidth.toNat) →
      exec .crcInit s = .next { s with cmd := 0x00000001, done := true, err := .configError, bus := .done })

/-- R179: CRC_UPD_BIT, by the narrow or the wide algorithm, in every state the engine keeps. -/
def Obligations.CrcUpdBitFeedsByte : Prop :=
  ∀ (s : State) (b : Byte), s.seq = .idle → EngineInv s →
    exec (.crcUpdBit b) s = .next { s with
      cmd := 0x00000002 ||| (b.setWidth 32 <<< 8), done := true, err := .ok, bus := .done
      crcReg := BitVec.ofNat 32
        (if s.curWidth = 4 then crcByte4 s.crcReg.toNat b s.curPoly.toNat
         else crcByteWide s.crcReg.toNat b s.curWidth.toNat s.curPoly.toNat) }

/-- R191: CRC_UPD_TBL, with CONFIG_ERROR checked before TABLE_INVALID, in every state the engine keeps. -/
def Obligations.CrcUpdTblFeedsByteOrRefuses : Prop :=
  ∀ (s : State) (b : Byte), s.seq = .idle → EngineInv s →
    (s.curWidth = 4 →
      exec (.crcUpdTbl b) s = .next { s with
        cmd := 0x00000003 ||| (b.setWidth 32 <<< 8), done := true, err := .configError, bus := .done }) ∧
    (s.curWidth ≠ 4 → ¬ (s.tblValid = true ∧ s.tblWidth = s.curWidth ∧ s.tblPoly = s.curPoly) →
      exec (.crcUpdTbl b) s = .next { s with
        cmd := 0x00000003 ||| (b.setWidth 32 <<< 8), done := true, err := .tableInvalid, bus := .done }) ∧
    (s.curWidth ≠ 4 → s.tblValid = true ∧ s.tblWidth = s.curWidth ∧ s.tblPoly = s.curPoly →
      exec (.crcUpdTbl b) s = .next { s with
        cmd := 0x00000003 ||| (b.setWidth 32 <<< 8), done := true, err := .ok, bus := .done
        crcReg := BitVec.ofNat 32 (crcTblStep s.crcReg.toNat b s.curWidth.toNat (fun i => (tableEntry s i).toNat)) })

/-- After CRC_INIT and any bytes by CRC_UPD_BIT, CRC_RESULT is the CRC of the bytes; with no byte it is 0 (40_crc_engine
R181, which the spec marks as derived). -/
def Obligations.CrcResultOfMessage : Prop :=
  ∀ (s : State) (B : List Byte), s.seq = .idle → cfgLegal s.crcWidth.toNat s.crcPoly.toNat = true →
    ∃ t, runInstrs (.crcInit :: B.map .crcUpdBit) s = some t ∧
      (regValue .crcResult t).toNat = crcBits B s.crcWidth.toNat s.crcPoly.toNat ∧
      (B = [] → regValue .crcResult t = 0)

/-- Between bytes the width-4 working register is the result shifted left by 4, its low nibble 0 (40_crc_engine R176, which
the spec marks as derived). -/
def Obligations.NarrowRegisterLowNibble : Prop :=
  ∀ (r P : Nat) (b : Byte), r < 256 → r % 16 = 0 → P < 16 →
    crcByte4 r b P % 16 = 0 ∧ crcByte4 r b P = crcOut (crcByte4 r b P) 4 <<< 4

/-- R74, R185, R186: TBL_BUILD with a legal configuration is accepted and finishes after some sequencer steps with every
entry the CRC of its index and the tag written; with an illegal one it finishes with CONFIG_ERROR. That tbl_valid is 0 from
the acceptance on is log 13. -/
def Obligations.TblBuildBuildsTheTable : Prop :=
  ∀ s : State, s.seq = .idle → s.table.wf →
    (cfgLegal s.crcWidth.toNat s.crcPoly.toNat = true →
      ∃ t m n,
        t = { s with
          cmd := 0x00000004, done := false, err := .ok, bus := .done, tblValid := false
          seq := .run (.tblBuild s.crcWidth s.crcPoly 0) } ∧
        exec .tblBuild s = .next t ∧
        runSequencer n t = { t with
          done := true, seq := .idle, table := m
          tblWidth := s.crcWidth, tblPoly := s.crcPoly, tblValid := true } ∧
        ∀ b : Byte, m.readWord b.toNat = BitVec.ofNat 32 (crcBits [b] s.crcWidth.toNat s.crcPoly.toNat)) ∧
    (cfgLegal s.crcWidth.toNat s.crcPoly.toNat = false →
      exec .tblBuild s = .next { s with cmd := 0x00000004, done := true, err := .configError, bus := .done })

/-- The table step with the table of (W, P) equals the bitwise step; hence, in any state of a safe run whose table is the
message's, a message fed by any mix of table and bitwise updates gives the CRC_RESULT of the bitwise updates alone
(40_crc_engine R192, which the spec marks as derived). -/
def Obligations.TableModeEqualsBitwise : Prop :=
  (∀ (W P r : Nat) (b : Byte) (T : Nat → Nat), 8 ≤ W → W ≤ 32 → P < 2 ^ W → r < 2 ^ W →
    (∀ i : Byte, T i.toNat = crcBits [i] W P) → crcTblStep r b W T = crcByteWide r b W P) ∧
  (∀ (s : State) (M : List (Bool × Byte)), s.seq = .idle → EngineInv s → TableInv s → s.curWidth ≠ 4 →
    s.tblValid = true ∧ s.tblWidth = s.curWidth ∧ s.tblPoly = s.curPoly →
    ∃ t u, runInstrs (M.map fun p => if p.1 then .crcUpdTbl p.2 else .crcUpdBit p.2) s = some t ∧
      runInstrs (M.map fun p => .crcUpdBit p.2) s = some u ∧
      t.crcReg = u.crcReg ∧ regValue .crcResult t = regValue .crcResult u)

/-! ### The long division -/

/-- The remainder is the checksum XOR the register CRC of the payload's bytes, and so the check passes exactly for that
CRC; any number of leading zero bytes is allowed (40_crc_engine R203, which the spec marks as derived). -/
def Obligations.LongDivisionAgreesWithCrc : Prop :=
  ∀ (B : List Byte) (chk n P : Nat), cfgLegal n P = true → chk < 2 ^ n →
    longDivide (beValue B) chk n P .generator = chk ^^^ crcBits B n P ∧
    (ldPass (beValue B) chk n P .generator = true ↔ chk = crcBits B n P)

/-- R205, R312, R362: CRC_CHECK with a legal configuration and an n-bit checksum is accepted, and after at most 32
sequencer steps (one division step each, log 2) CHK_REM holds the remainder and CHK_PASS says whether it is 0; otherwise
it finishes with CONFIG_ERROR, CHK_PASS cleared and CHK_REM kept. -/
def Obligations.CrcCheckRunsTheDivision : Prop :=
  ∀ s : State, s.seq = .idle →
    (cfgLegal s.crcWidth.toNat s.crcPoly.toNat = true → s.chkSum.toNat < 2 ^ s.crcWidth.toNat →
      ∃ t n rem,
        t = { s with
          cmd := 0x00000005, done := false, err := .ok, bus := .done, chkPass := false
          seq := .run (.crcCheck s.crcWidth s.crcPoly
            (s.chkPayload.toNat <<< s.crcWidth.toNat ||| s.chkSum.toNat)) } ∧
        exec .crcCheck s = .next t ∧ n ≤ 32 ∧
        rem = longDivide s.chkPayload.toNat s.chkSum.toNat s.crcWidth.toNat s.crcPoly.toNat .generator ∧
        runSequencer n t = { t with
          done := true, seq := .idle, chkRem := BitVec.ofNat 32 rem
          chkPass := decide (rem = 0), err := if rem = 0 then .ok else .checksumMismatch }) ∧
    (cfgLegal s.crcWidth.toNat s.crcPoly.toNat = false ∨ 2 ^ s.crcWidth.toNat ≤ s.chkSum.toNat →
      exec .crcCheck s = .next { s with
        cmd := 0x00000005, done := true, err := .configError, bus := .done, chkPass := false })

/-- The valid header bytes under both readings of the divisor; under GENERATOR the valid CHK is the register CRC-4 of the
marker and the sequence counter; 0xAA is not valid under either (41_frame_sync R237, which the spec marks as derived). -/
def Obligations.ValidHeaderBytes : Prop :=
  ∀ h : Byte,
    (hdrCheckWith .generator h = true ↔
      h ∈ [0x0F, 0x16, 0x24, 0x3D, 0x40, 0x59, 0x6B, 0x72, 0x88, 0x91, 0xA3, 0xBA, 0xC7, 0xDE, 0xEC, 0xF5]) ∧
    (hdrCheckWith .literal h = true ↔
      h ∈ [0x06, 0x14, 0x22, 0x30, 0x4E, 0x5C, 0x6A, 0x78, 0x84, 0x96, 0xA0, 0xB2, 0xCC, 0xDE, 0xE8, 0xFA]) ∧
    (hdrCheckWith .generator h = true ↔ h.toNat % 16 = crcBits [0x0A, 0xA0 ||| (h >>> 4)] 4 0x9) ∧
    hdrCheck h = hdrCheckWith .generator h

/-! ### The synchronizer -/

/-- R230, R232: SYNC is accepted in SEARCHING (at acceptance: log 13), and the sequencer's steps add up to SyncCore,
within 2 x SCAN_MAX steps (one when SCAN_MAX is 0), whenever the byte source answers its reads. One port answer a step is
the model's choice (log 2). -/
def Obligations.SyncRunsSyncCore : Prop :=
  ∀ s : State, s.seq = .idle →
    ∃ t, t = { s with
        cmd := 0x00000006, done := false, err := .ok, bus := .done, syncState := .searching
        seq := .run (.sync { budget := s.scanMax.toNat, reads := 0, fails := 0, pos := .candidate }) } ∧
      exec .sync s = .next t ∧
      ∀ u, wholeSync t = some u → ∃ n, n ≤ max 1 (2 * s.scanMax.toNat) ∧ runSequencer n t = u

/-- With SCAN_MAX = 0, SyncCore reads nothing and SYNC and FRAME time out with FAILS = READS = 0, SEARCHING (41_frame_sync
R238, which the spec marks as derived); that one step of the sequencer does so is the model's choice (log 2). -/
def Obligations.ZeroBudgetTimesOut : Prop :=
  ∀ s : State, s.seq = .idle → s.scanMax = 0 →
    (∃ t, exec .sync s = .next t ∧
      sequencerStep t = { s with
        cmd := 0x00000006, done := true, err := .syncTimeout, bus := .done, syncState := .searching
        hdr := { s.hdr with fails := 0, reads := 0 } }) ∧
    (∃ t, exec .frame s = .next t ∧
      sequencerStep t = { s with
        cmd := 0x00000008, done := true, err := .syncTimeout, bus := .done, syncState := .searching
        hdr := { s.hdr with fails := 0, reads := 0 } })

/-- R239, R314: on answers without a marker, SYNC times out after exactly SCAN_MAX reads, all consumed; SEQ and CHK are
kept. One port answer a step is the model's choice (log 2). -/
def Obligations.NoMarkerTimesOut : Prop :=
  ∀ (s : State) (l rest : List PortAnswer), s.seq = .idle → 0 < s.scanMax.toNat → s.port = l ++ rest →
    l.length = s.scanMax.toNat → .byte 0xAA ∉ l →
    ∃ t, exec .sync s = .next t ∧
      runSequencer s.scanMax.toNat t = { s with
        cmd := 0x00000006, done := true, err := .syncTimeout, bus := .done, syncState := .searching
        port := rest, hdr := { s.hdr with fails := 0, reads := s.scanMax } }

/-- R230, R233: on a marker and a valid header as the first two answers, SYNC ends SYNCHRONIZED after two steps, with
SEQ, CHK, FAILS = 0 and READS = 1 recorded. One port answer a step is the model's choice (log 2). -/
def Obligations.MarkerAndHeaderSynchronize : Prop :=
  ∀ (s : State) (h : Byte) (rest : List PortAnswer), s.seq = .idle → 0 < s.scanMax.toNat →
    s.port = .byte 0xAA :: .byte h :: rest → hdrCheck h = true →
    ∃ t, exec .sync s = .next t ∧
      runSequencer 2 t = { s with
        cmd := 0x00000006, done := true, err := .ok, bus := .done, syncState := .synchronized, port := rest
        hdr := { chk := h.extractLsb' 0 4, seq := h.extractLsb' 4 4, fails := 0, reads := 1 } }

/-! ### The decoder -/

/-- R260, R262 to R264: DECODE_BUF is accepted, and when it finishes, both checksums are recorded and, when they agree and
the report code is known, the packet; a mismatch is reported before an unknown code. -/
def Obligations.DecodeBufExaminesTheBody : Prop :=
  ∀ s : State, s.seq = .idle →
    ∃ t crc rx n,
      t = { s with cmd := 0x00000009, done := false, err := .ok, bus := .done, seq := .run .decodeBuf } ∧
      exec .decodeBuf s = .next t ∧
      crc = BitVec.ofNat 32 (crcBits ((List.range 47).map (fbufByte s)) 32 0x04C11DB7) ∧
      rx = le32 (fbufByte s 47) (fbufByte s 48) (fbufByte s 49) (fbufByte s 50) ∧
      (crc ≠ rx → runSequencer n t =
        { t with done := true, seq := .idle, err := .checksumMismatch, crcCalc := crc, crcRx := rx }) ∧
      (crc = rx → fbufByte s 37 ∉ [0x01, 0x02, 0x04, 0x05, 0x08] → runSequencer n t =
        { t with done := true, seq := .idle, err := .unknownReportId, crcCalc := crc, crcRx := rx }) ∧
      (crc = rx → fbufByte s 37 ∈ [0x01, 0x02, 0x04, 0x05, 0x08] → runSequencer n t =
        { t with
          done := true, seq := .idle, err := .ok, crcCalc := crc, crcRx := rx, pktValid := true
          pkt := unpack s })

/-- R278, R279, R281 to R285: after a DECODE_BUF that finds the body good, the packet registers' values in numbers, from
the body's bytes and SENSOR_NUM. -/
def Obligations.PacketFieldValues : Prop :=
  ∀ s : State, s.seq = .idle → bodyCode s = .ok →
    let f : Nat → Nat := fun n => (fbufByte s n).toNat
    let le24 : Nat → Int := fun n => f n + 256 * f (n + 1) + 65536 * f (n + 2)
    ∃ t u n, exec .decodeBuf s = .next t ∧ u = runSequencer n t ∧ u.seq = .idle ∧ u.err = .ok ∧
      (∀ j : Fin 6, (regValue (.pktDiff j) u).toInt =
        if (2 : Int) ^ 23 ≤ le24 (3 * j) then le24 (3 * j) - 2 ^ 24 else le24 (3 * j)) ∧
      (∀ j : Fin 6, (regValue (.pktSum j) u).toInt =
        if (2 : Int) ^ 23 ≤ le24 (18 + 3 * j) then le24 (18 + 3 * j) - 2 ^ 24 else le24 (18 + 3 * j)) ∧
      (regValue .pktInfo u).toNat = f 37 + 256 * f 38 + 65536 * (f 39 % 4) + 2 ^ 24 * s.sensorNum.toNat ∧
      (regValue .pktDelay u).toNat = 256 * (f 39 / 4) + f 40 ∧
      (regValue .pktImuXy u).toNat = f 41 + 256 * f 42 + 65536 * (f 43 + 256 * f 44) ∧
      (regValue .pktImuZ u).toNat = f 45 + 256 * f 46

/-- A body whose trailer is the little-endian CRC-32 of its payload passes the checksum check, and with any single bit of
the trailer flipped fails with CHECKSUM_MISMATCH (42_packet_decoder R271, which the spec marks as derived). -/
def Obligations.TrailerRoundTrip : Prop :=
  ∀ s : State, s.fbuf.wf →
    (∀ j < 4, fbufByte s (47 + j) =
      byteOf (BitVec.ofNat 32 (crcBits ((List.range 47).map (fbufByte s)) 32 0x04C11DB7)) j) →
    bodyCode s ≠ .checksumMismatch ∧
    ∀ j < 4, ∀ i < 8,
      bodyCode (storeFbuf (47 + j) (fbufByte s (47 + j) ^^^ ((1 : Byte) <<< i)) s) = .checksumMismatch

/-- R267, R268: DECODE is accepted from either synchronizer state, and the sequencer's steps add up to its rule, within
51 steps, whenever the byte source answers its reads. One port answer a step is the model's choice (log 2). -/
def Obligations.DecodeRunsItsRule : Prop :=
  ∀ s : State, s.seq = .idle →
    ∃ t, t = { s with cmd := 0x00000007, done := false, err := .ok, bus := .done, seq := .run (.decode 0) } ∧
      exec .decode s = .next t ∧
      ∀ u, wholeDecode t = some u → ∃ n, n ≤ 51 ∧ runSequencer n t = u

/-- R268, R317: a timeout after k < 51 body bytes ends DECODE with FRAME_SHORT: the k bytes are in FBUF, the other bytes,
the checksums and the packet are as before. One port answer a step is the model's choice (log 2). -/
def Obligations.ShortBodyEndsDecode : Prop :=
  ∀ (s : State) (B : List Byte) (rest : List PortAnswer), s.seq = .idle → s.fbuf.wf → B.length < 51 →
    s.port = B.map .byte ++ .timeout :: rest →
    ∃ t u m, exec .decode s = .next t ∧ runSequencer (B.length + 1) t = u ∧
      u = { s with
        cmd := 0x00000007, done := true, err := .frameShort, bus := .done, syncState := .searching, port := rest
        fbuf := m } ∧
      ∀ n < 51, fbufByte u n = if h : n < B.length then B[n] else fbufByte s n

/-- R230, R269: FRAME is accepted in SEARCHING (at acceptance: log 13), and the sequencer's steps add up to its rule,
within 2 x SCAN_MAX + 51 steps (one more when SCAN_MAX is 0), whenever the byte source answers its reads. One port answer
a step is the model's choice (log 2). -/
def Obligations.FrameRunsItsRule : Prop :=
  ∀ s : State, s.seq = .idle →
    ∃ t, t = { s with
        cmd := 0x00000008, done := false, err := .ok, bus := .done, syncState := .searching
        seq := .run (.frame (.search
          { budget := s.scanMax.toNat, reads := 0, fails := 0, pos := .candidate })) } ∧
      exec .frame s = .next t ∧
      ∀ u, wholeFrame t = some u → ∃ n, n ≤ max 1 (2 * s.scanMax.toNat) + 51 ∧ runSequencer n t = u

/-- R113: where the byte source stops answering, SYNC, DECODE and FRAME stay BUSY however many steps the sequencer
takes. -/
def Obligations.SilentSourceHangsTheCommand : Prop :=
  ∀ (s t : State) (n : Nat), s.seq = .idle →
    (exec .sync s = .next t → wholeSync t = none → (runSequencer n t).busy = true) ∧
    (exec .decode s = .next t → wholeDecode t = none → (runSequencer n t).busy = true) ∧
    (exec .frame s = .next t → wholeFrame t = none → (runSequencer n t).busy = true)

/-- R270: DECODE and FRAME end in SEARCHING, with any code. -/
def Obligations.DecodeAndFrameEndSearching : Prop :=
  ∀ (s : State) (c : Running), s.seq = .run c → c.op = .decode ∨ c.op = .frame →
    (sequencerStep s).seq = .idle → (sequencerStep s).syncState = .searching

/-! ### Register accesses -/

/-- R34, R72: a read of any register outside the running command's write set answers its value and changes nothing. -/
def Obligations.ReadsAnswerTheRegister : Prop :=
  ∀ (r : Reg) (s : State), unspecifiedRead r s = false →
    exec (r.instr .read) s = .next { s with bus := .data (regValue r s) }

/-- R72, R322: a read of a register in the running command's write set answers an unspecified value and changes no
FSCORE state (the value is the model's free value, log 5); STATUS is never such a register, and while IDLE none is. The
write sets are written out. -/
def Obligations.ReadsWhileBusyAreFree : Prop :=
  ∀ (r : Reg) (s : State),
    (∀ c, s.seq = .run c → writeSet c.op r = true →
      exec (r.instr .read) s = .next { s with
        bus := .data (Config.busyRead s.freeCount), freeCount := s.freeCount + 1 }) ∧
    (∀ c : Running,
      let decoder : Prop :=
        r = .crcRx ∨ r = .crcCalc ∨ (∃ j, r = .pktDiff j) ∨ (∃ j, r = .pktSum j) ∨ r = .pktInfo ∨ r = .pktDelay ∨
        r = .pktImuXy ∨ r = .pktImuZ
      writeSet c.op r = true ↔
        match c with
        | .tblBuild _ _ _ => (∃ i, r = .table i) ∨ r = .tblInfo ∨ r = .tblPoly
        | .crcCheck _ _ _ => r = .chkRem
        | .sync _ => r = .hdrInfo
        | .decode _ => (∃ k, r = .fbuf k) ∨ decoder
        | .frame _ => r = .hdrInfo ∨ (∃ k, r = .fbuf k) ∨ decoder
        | .decodeBuf => decoder) ∧
    (∀ op, writeSet op .status = false) ∧
    (s.seq = .idle → exec (r.instr .read) s = .next { s with bus := .data (regValue r s) })

/-- R34: a write of a read-only register has no effect, busy or not. -/
def Obligations.ReadOnlyWritesHaveNoEffect : Prop :=
  ∀ (r : Reg) (s : State) (v : Word), r.readOnly = true →
    exec (r.instr (.write v)) s = .next { s with bus := .done }

/-- R45, R46, R50, R51, R53, R54: while IDLE a write of a configuration register stores the bits of its field. -/
def Obligations.ConfigurationWritesStore : Prop :=
  ∀ (s : State) (v : Word), s.seq = .idle →
    exec (.mmioCrcCfg (.write v)) s = .next { s with crcWidth := BitVec.ofNat 6 v.toNat, bus := .done } ∧
    exec (.mmioCrcPoly (.write v)) s = .next { s with crcPoly := v, bus := .done } ∧
    exec (.mmioChkPayload (.write v)) s = .next { s with chkPayload := v, bus := .done } ∧
    exec (.mmioChkSum (.write v)) s = .next { s with chkSum := v, bus := .done } ∧
    exec (.mmioSyncCfg (.write v)) s = .next { s with scanMax := BitVec.ofNat 8 v.toNat, bus := .done } ∧
    exec (.mmioSensorNum (.write v)) s = .next { s with sensorNum := BitVec.ofNat 8 v.toNat, bus := .done }

/-- R36, R310: a STATUS write clears OVR if its bit 4 is 1 and has no other effect, busy or not; a STATUS read is exact,
busy or not, its bits are the flags, and its ERR field is the number of the completion code. -/
def Obligations.StatusRegister : Prop :=
  ∀ (s : State) (v : Word),
    exec (.mmioStatus (.write v)) s = .next { s with ovr := s.ovr && !v.getLsbD 4, bus := .done } ∧
    exec (.mmioStatus .read) s = .next { s with bus := .data (statusWord s) } ∧
    (statusWord s).toNat =
      (if s.seq = .idle then 0 else 1) + (if s.done then 2 else 0) +
      (if s.syncState = .synchronized then 4 else 0) + (if s.pktValid then 8 else 0) + (if s.ovr then 16 else 0) +
      (if s.chkPass then 32 else 0) + (if s.tblValid then 64 else 0) +
      256 * (match s.err with
        | .ok => 0
        | .syncTimeout => 1
        | .checksumMismatch => 2
        | .unknownReportId => 3
        | .frameShort => 4
        | .configError => 5
        | .tableInvalid => 6
        | .illegalCmd => 7)

/-- R103: a reserved offset reads 0 and ignores writes, with no other effect. -/
def Obligations.ReservedOffsets : Prop :=
  ∀ (o : Offset) (v : Word) (s : State), reservedOffset o = true →
    exec (.mmioReserved o .read) s = .next { s with bus := .data 0 } ∧
    exec (.mmioReserved o (.write v)) s = .next { s with bus := .done }

/-- R106: while IDLE, a write of FBUF word k stores its bytes, little-endian, but for FBUF[51], which does not exist; and
the word read is put together from the same bytes. -/
def Obligations.FbufWordAccess : Prop :=
  ∀ (k : Fin 13) (v : Word) (s : State), s.seq = .idle → s.fbuf.wf →
    (∃ t m, exec (.mmioFbuf (BitVec.ofNat 4 k) (.write v)) s = .next t ∧ t = { s with fbuf := m, bus := .done } ∧
      ∀ n < 51, fbufByte t n = if n / 4 = k then v.extractLsb' (8 * (n % 4)) 8 else fbufByte s n) ∧
    exec (.mmioFbuf (BitVec.ofNat 4 k) .read) s = .next { s with bus := .data (
      (fbufByte s (4 * k)).setWidth 32 ||| (fbufByte s (4 * k + 1)).setWidth 32 <<< 8 |||
      (fbufByte s (4 * k + 2)).setWidth 32 <<< 16 |||
      (if (k : Nat) = 12 then (0 : Word) else (fbufByte s (4 * k + 3)).setWidth 32 <<< 24)) }

/-- R107: while no TBL_BUILD runs, a TABLE read answers the entry if tbl_valid and 0 otherwise; a write has no effect. -/
def Obligations.TableAccess : Prop :=
  ∀ (i : BitVec 8) (v : Word) (s : State),
    ((∀ W P n, s.seq ≠ .run (.tblBuild W P n)) →
      exec (.mmioTable i .read) s = .next { s with
        bus := .data (if s.tblValid then s.table.readWord i.toNat else 0) }) ∧
    exec (.mmioTable i (.write v)) s = .next { s with bus := .done }

/-- R35, R45 to R59: the values of the command, configuration, engine, check, synchronizer and table registers, in terms
of the state's fields. -/
def Obligations.RegisterFieldPositions : Prop :=
  ∀ s : State,
    (EngineInv s → (regValue .crcResult s).toNat = if s.curWidth = 4 then s.crcReg.toNat / 16 else s.crcReg.toNat) ∧
    (regValue .crcCur s).toNat = s.curWidth.toNat ∧ regValue .crcCurPoly s = s.curPoly ∧
    (regValue .hdrInfo s).toNat =
      s.hdr.chk.toNat + 16 * s.hdr.seq.toNat + 2 ^ 8 * s.hdr.fails.toNat + 2 ^ 16 * s.hdr.reads.toNat ∧
    (regValue .tblInfo s).toNat = s.tblWidth.toNat + (if s.tblValid then 2 ^ 31 else 0) ∧
    regValue .tblPoly s = s.tblPoly ∧
    regValue .cmd s = s.cmd ∧ (regValue .crcCfg s).toNat = s.crcWidth.toNat ∧ regValue .crcPoly s = s.crcPoly ∧
    regValue .chkPayload s = s.chkPayload ∧ regValue .chkSum s = s.chkSum ∧ regValue .chkRem s = s.chkRem ∧
    (regValue .syncCfg s).toNat = s.scanMax.toNat ∧ (regValue .sensorNum s).toNat = s.sensorNum.toNat ∧
    regValue .crcRx s = s.crcRx ∧ regValue .crcCalc s = s.crcCalc

/-! ### Reset -/

/-- R73, R351: the value of every register after reset. -/
def Obligations.ResetRegisterValues : Prop :=
  (∀ r : Reg, regValue r State.reset =
    match r with
    | .crcCfg => 0x00000020
    | .crcPoly => 0x04C11DB7
    | .crcCur => 0x00000020
    | .crcCurPoly => 0x04C11DB7
    | .syncCfg => 0x00000064
    | _ => 0) ∧
  (∀ n, fbufByte State.reset n = 0x00) ∧ State.reset.crcReg = 0 ∧ State.reset.tblValid = false ∧
  State.reset.syncState = .searching ∧ State.reset.seq = .idle

/-- R351, R352: a reset, also while a command runs, sets FSCORE's state to its reset values; the byte source keeps its
bytes, but for the answer of a read attempt in progress, which is consumed exactly when the event says so (log 9). The
agents' own fields stay (log 1, 3, 4, 5). That the stored TABLE, which R351 leaves unspecified and no program can observe,
is all zero after the reset is the model's choice (log 6). -/
def Obligations.ResetAtAnyTime : Prop :=
  ∀ (s : State) (takesByte : Bool) (rest : List Event), s.agenda = .reset takesByte :: rest →
    ∃ p, step s = .next { State.reset with
        agenda := rest, port := p, bus := s.bus, freeCount := s.freeCount } ∧
      (takesByte = true → s.readsPort = true → p = s.port.tail) ∧
      (takesByte = false ∨ s.readsPort = false → p = s.port)

/-- The reset state is safe. -/
def Obligations.ResetIsSafe : Prop := Inv State.reset

/-! ### Invariants that every step keeps -/

/-- Every step keeps the register files in canonical form and FBUF within its 51 bytes (R66). -/
def Obligations.StepKeepsMemoryCanonical : Prop :=
  ∀ s t : State, MemoryInv s → step s = .next t → MemoryInv t

/-- Every step keeps the latched configuration legal (R69), crc_reg within its width (R68) and the narrow register's low
nibble 0 (R176). -/
def Obligations.StepKeepsEngine : Prop :=
  ∀ s t : State, EngineInv s → step s = .next t → EngineInv t

/-- Every step keeps a valid table the exact table of its tag, and a table being built invalid and right so far (R185,
R186, R357). -/
def Obligations.StepKeepsTableExact : Prop :=
  ∀ s t : State, MemoryInv s → TableInv s → step s = .next t → TableInv t

/-- Every step keeps DONE = 0 and ERR = OK while BUSY (R38, R44), the running command's progress in its bounds (R232,
R268), and FAILS ≤ READS (R236). -/
def Obligations.StepKeepsSequencerSane : Prop :=
  ∀ s t : State, SeqInv s → step s = .next t → SeqInv t

/-- Every step keeps the packet registers at a packet with a known report code, or at reset values while PKT_VALID = 0
(R40, R62, R264). -/
def Obligations.StepKeepsPacketKnown : Prop :=
  ∀ s t : State, PacketInv s → step s = .next t → PacketInv t

/-! ### Rules of the whole machine -/

/-- R322: a sequencer step leaves the value of every register outside the running command's write set, but for STATUS. -/
def Obligations.SequencerStaysInWriteSet : Prop :=
  ∀ (s : State) (c : Running) (r : Reg), s.seq = .run c → writeSet c.op r = false → r ≠ .status →
    regValue r (sequencerStep s) = regValue r s

/-- R71, R358: while a command runs, no event but a reset changes CMD, the configuration registers, the latched
configuration or crc_reg. -/
def Obligations.BusyFreezesConfiguration : Prop :=
  ∀ s t : State, s.busy = true → (∀ b rest, s.agenda ≠ .reset b :: rest) → step s = .next t →
    t.cmd = s.cmd ∧ t.crcWidth = s.crcWidth ∧ t.crcPoly = s.crcPoly ∧ t.chkPayload = s.chkPayload ∧
    t.chkSum = s.chkSum ∧ t.scanMax = s.scanMax ∧ t.sensorNum = s.sensorNum ∧ t.curWidth = s.curWidth ∧
    t.curPoly = s.curPoly ∧ t.crcReg = s.crcReg

/-- R69: the latched configuration changes only at a reset, or at a CRC_INIT that finds CRC_CFG and CRC_POLY legal and
latches them. -/
def Obligations.OnlyCrcInitLatches : Prop :=
  ∀ s t : State, (∀ b rest, s.agenda ≠ .reset b :: rest) → step s = .next t →
    (t.curWidth ≠ s.curWidth ∨ t.curPoly ≠ s.curPoly) →
    (∃ rest, s.agenda = .host (.cmdw 1) :: rest ∨ s.agenda = .host (mmioCode 0 (.write 1)) :: rest) ∧
    cfgLegal s.crcWidth.toNat s.crcPoly.toNat = true ∧ t.curWidth = s.crcWidth ∧ t.curPoly = s.crcPoly ∧
    t.crcReg = 0

/-- R40, R41: PKT_VALID is cleared only by reset; OVR is cleared only by a STATUS write with bit 4 = 1, or reset. -/
def Obligations.StickyFlags : Prop :=
  ∀ s t : State, (∀ b rest, s.agenda ≠ .reset b :: rest) → step s = .next t →
    (s.pktValid = true → t.pktValid = true) ∧
    (s.ovr = true → t.ovr = false →
      ∃ v rest, s.agenda = .host (mmioCode 0x004 (.write v)) :: rest ∧ v.getLsbD 4 = true)

/-- R230: SYNCHRONIZED is entered only by a step of SYNC's or FRAME's search that reads a valid header. -/
def Obligations.OnlyValidHeadersSynchronize : Prop :=
  ∀ s t : State, step s = .next t → s.syncState = .searching → t.syncState = .synchronized →
    ∃ r h rest, (s.seq = .run (.sync r) ∨ s.seq = .run (.frame (.search r))) ∧ r.pos = .header ∧
      s.port = .byte h :: rest ∧ hdrCheck h = true ∧ t.port = rest

/-- R112: an answer of the byte source is consumed from the front, and only while SYNC, DECODE or FRAME runs; a new one
comes behind, and only by the byte source's own step. That the answers are a list (log 3), that a step consumes at most one
(log 2), and that a reset may consume one in flight (log 9) are the model's choices. -/
def Obligations.PortIsReadInOrder : Prop :=
  ∀ s t : State, step s = .next t →
    t.port = s.port ∨
      (t.port = s.port.tail ∧ ∃ c, s.seq = .run c ∧ (c.op = .sync ∨ c.op = .decode ∨ c.op = .frame)) ∨
      ∃ a rest, s.agenda = .byteSource a :: rest ∧ t.port = s.port ++ [a]

/-- R362: in a safe state, a running command finishes within 561 sequencer steps if the byte source has that many
answers: 2 x 255 of a search and 51 of a body. One port answer a step is the model's choice (log 2). -/
def Obligations.EveryCommandFinishes : Prop :=
  ∀ s : State, SeqInv s → 561 ≤ s.port.length → ∃ n, n ≤ 561 ∧ (runSequencer n s).seq = .idle

/-- Whose turn a step is, in every state: the sequencer's with an empty agenda or by a `sequencer` event (70_reset R362;
log 2), the byte source's by its own event, which adds its answer behind those not taken yet (00_scope R19; log 3), and the
host's by a `poll`: a STATUS read that is repeated while BUSY is 1, after the next event if that is another agent's and
after a step of the sequencer if not (30_encoding R153; log 15). -/
def Obligations.AgentsTakeTheirTurns : Prop :=
  ∀ (s : State) (rest : List Event),
    (s.agenda = [] → step s = .next (sequencerStep s)) ∧
    (s.agenda = .sequencer :: rest → step s = .next (sequencerStep { s with agenda := rest })) ∧
    (∀ a, s.agenda = .byteSource a :: rest → step s = .next { s with agenda := rest, port := s.port ++ [a] }) ∧
    (s.agenda = .poll :: rest → s.seq = .idle →
      step s = .next { s with agenda := rest, bus := .data (statusWord s) }) ∧
    (s.agenda = .poll :: rest → s.busy = true → (∀ e ∈ rest.head?, e = .poll ∨ ∃ c, e = .host c) →
      step s = .next { s with agenda := .sequencer :: .poll :: rest, bus := .data (statusWord s) }) ∧
    (∀ e l, s.agenda = .poll :: e :: l → s.busy = true →
      (e = .sequencer ∨ (∃ a, e = .byteSource a) ∨ ∃ b, e = .reset b) →
      step s = .next { s with agenda := e :: .poll :: l, bus := .data (statusWord s) })
end

