-- ==== Sys2Proof/Laws/Crc.lean ====
section
/-! SUPPORT. The ranges of the CRC functions, and the progress of the long division. -/

namespace Sys2Proof.Machine

open Sys2Proof

/-- `CfgLegal` in words (40_crc_engine R170). -/
theorem cfgLegal_iff (W P : Nat) : cfgLegal W P = true ↔ (W = 4 ∨ (8 ≤ W ∧ W ≤ 32)) ∧ P < 2 ^ W := by
  simp only [cfgLegal, Bool.and_eq_true, Bool.or_eq_true, beq_iff_eq, decide_eq_true_eq]
  exact Iff.rfl

theorem mask_and_lt (x W : Nat) : x &&& mask W < 2 ^ W :=
  lt_of_le_of_lt Nat.and_le_right (Nat.sub_lt (Nat.two_pow_pos W) Nat.one_pos)

theorem crcShiftWide_lt {W P : Nat} (hP : P < 2 ^ W) (r : Nat) : crcShiftWide W P r < 2 ^ W := by
  unfold crcShiftWide
  split
  · exact Nat.xor_lt_two_pow (mask_and_lt _ _) hP
  · exact mask_and_lt _ _

theorem crcByteWide_lt {W P : Nat} (hP : P < 2 ^ W) (r : Nat) (b : Byte) : crcByteWide r b W P < 2 ^ W :=
  crcShiftWide_lt hP _

theorem crcShift4_lt {p8 : Nat} (hp : p8 < 256) (r : Nat) : crcShift4 p8 r < 256 := by
  have h : (r <<< 1) &&& 0xFF < 2 ^ 8 := lt_of_le_of_lt Nat.and_le_right (by decide)
  unfold crcShift4
  split
  · exact Nat.xor_lt_two_pow (n := 8) h hp
  · exact h

theorem shiftLeft4_lt {P : Nat} (hP : P < 16) : P <<< 4 < 256 := by
  rw [Nat.shiftLeft_eq]; omega

theorem crcByte4_lt {P : Nat} (hP : P < 16) (r : Nat) (b : Byte) : crcByte4 r b P < 256 :=
  crcShift4_lt (shiftLeft4_lt hP) _

theorem crcTblStep_lt (r : Nat) (b : Byte) (W : Nat) (T : Nat → Nat) : crcTblStep r b W T < 2 ^ W :=
  mask_and_lt _ _

/-! ### Long division -/

theorem bitLen_lt (v : Nat) : v < 2 ^ bitLen v := by
  unfold bitLen
  split
  · simp_all
  · exact Nat.lt_log2_self

theorem bitLen_le {v n : Nat} (h : v < 2 ^ n) : bitLen v ≤ n := by
  unfold bitLen
  split
  · exact Nat.zero_le _
  · rename_i hv
    exact (Nat.log2_lt hv).2 h

/-- A number of bit length k + 1 lies from 2^k on. -/
theorem two_pow_le_of_bitLen {v k : Nat} (h : bitLen v = k + 1) : 2 ^ k ≤ v := by
  unfold bitLen at h
  split at h
  · omega
  · rename_i hv
    have : v.log2 = k := by omega
    exact this ▸ Nat.log2_self_le hv

/-- The generator divisor has n + 1 bits (R201). -/
theorem bitLen_generator {n P : Nat} (hP : P < 2 ^ n) : bitLen (divisor n P .generator) = n + 1 := by
  have hlo : 2 ^ n ≤ (1 <<< n) ||| P := by
    rw [Nat.shiftLeft_eq, Nat.one_mul]; exact Nat.left_le_or
  have hhi : (1 <<< n) ||| P < 2 ^ (n + 1) := by
    refine Nat.or_lt_two_pow ?_ (lt_trans hP (Nat.pow_lt_pow_right (by decide) (Nat.lt_succ_self n)))
    rw [Nat.shiftLeft_eq, Nat.one_mul]
    exact Nat.pow_lt_pow_right (by decide) (Nat.lt_succ_self n)
  have hne : (1 <<< n) ||| P ≠ 0 := by have := Nat.two_pow_pos n; omega
  show bitLen ((1 <<< n) ||| P) = n + 1
  have h1 : bitLen ((1 <<< n) ||| P) ≤ n + 1 := bitLen_le hhi
  have h2 : n < bitLen ((1 <<< n) ||| P) := by
    rw [← Nat.pow_lt_pow_iff_right (a := 2) (by decide)]
    exact lt_of_le_of_lt hlo (bitLen_lt _)
  omega

/-- A division step clears the leading 1 (R202). -/
theorem ldStep_lt {D w k : Nat} (hD : 0 < bitLen D) (hDw : bitLen D ≤ bitLen w) (hw : bitLen w = k + 1) :
    ldStep D w < 2 ^ k := by
  have hsplit : (bitLen D - 1) + (bitLen w - bitLen D) = k := by omega
  have hDlo : 2 ^ (bitLen D - 1) ≤ D := two_pow_le_of_bitLen (by omega)
  have hDhi : D < 2 ^ (bitLen D - 1 + 1) := by
    have := bitLen_lt D
    rwa [show bitLen D - 1 + 1 = bitLen D by omega]
  have hwlo : 2 ^ k ≤ w := two_pow_le_of_bitLen hw
  have hwhi : w < 2 ^ (k + 1) := hw ▸ bitLen_lt w
  have hslo : 2 ^ k ≤ D <<< (bitLen w - bitLen D) := by
    rw [Nat.shiftLeft_eq, ← hsplit, Nat.pow_add]
    exact Nat.mul_le_mul_right _ hDlo
  have hshi : D <<< (bitLen w - bitLen D) < 2 ^ (k + 1) := by
    rw [Nat.shiftLeft_eq, ← hsplit, show bitLen D - 1 + (bitLen w - bitLen D) + 1
      = bitLen D - 1 + 1 + (bitLen w - bitLen D) by omega, Nat.pow_add]
    exact Nat.mul_lt_mul_of_pos_right hDhi (Nat.two_pow_pos _)
  have top : ∀ {x : Nat}, 2 ^ k ≤ x → x < 2 ^ (k + 1) → x.testBit k = true := by
    intro x hlo hhi
    rw [Nat.testBit_eq_decide_div_mod_eq, decide_eq_true_eq]
    have : x / 2 ^ k = 1 := by
      apply Nat.div_eq_of_lt_le <;> [omega; (rw [Nat.pow_succ] at hhi; omega)]
    rw [this]
  apply Nat.lt_pow_two_of_testBit
  intro i hi
  rw [ldStep, Nat.testBit_xor]
  rcases Nat.eq_or_lt_of_le hi with rfl | hi
  · rw [top hwlo hwhi, top hslo hshi]; rfl
  · have hp : 2 ^ (k + 1) ≤ 2 ^ i := Nat.pow_le_pow_right (by decide) hi
    rw [Nat.testBit_lt_two_pow (lt_of_lt_of_le hwhi hp), Nat.testBit_lt_two_pow (lt_of_lt_of_le hshi hp)]
    rfl

end Sys2Proof.Machine
end

