-- ==== Sys2Proof/Laws/Memory.lean ====
section
/-! SUPPORT. What the register files' operations do: a read after a write, and the canonical form every write keeps. -/

namespace Sys2Proof.Machine

open Sys2Proof

@[simp] theorem Memory.read_nil (a : Nat) : Memory.read [] a = Memory.unlisted := rfl

theorem Memory.read_cons (c : Host.Cell) (m : Memory) (a : Nat) :
    Memory.read (c :: m) a = if c.1 = a then c.2 else Memory.read m a := rfl

/-- The canonical form of a list with a first cell: the cell is below the rest and holds a listed value. -/
theorem Memory.wf_cons (c : Host.Cell) (m : Memory) :
    Memory.wf (c :: m) ↔ (∀ d ∈ m, c.1 < d.1) ∧ c.2 ≠ Memory.unlisted ∧ Memory.wf m := by
  simp only [Memory.wf, List.pairwise_cons, List.forall_mem_cons]
  tauto

@[simp] theorem Memory.wf_nil : Memory.wf [] := by decide

/-- An index below every listed one reads as unlisted. -/
theorem Memory.read_of_lt {m : Memory} {a : Nat} (h : ∀ c ∈ m, a < c.1) : m.read a = Memory.unlisted := by
  induction m with
  | nil => rfl
  | cons c m ih =>
    have hc : c.1 ≠ a := Nat.ne_of_gt (h c List.mem_cons_self)
    rw [Memory.read_cons, if_neg hc]
    exact ih fun d hd => h d (List.mem_cons_of_mem _ hd)

/-- Every cell of a write's result was there, or is the cell written. -/
theorem Memory.mem_write {m : Memory} {a : Nat} {b : Byte} {c : Host.Cell} (h : c ∈ m.write a b) :
    c ∈ m ∨ (c = (a, b) ∧ b ≠ Memory.unlisted) := by
  induction m with
  | nil =>
    simp only [Memory.write] at h
    split at h <;> simp_all
  | cons d m ih =>
    obtain ⟨k, v⟩ := d
    simp only [Memory.write] at h
    split at h
    · split at h <;> (simp_all; try tauto)
    · split at h
      · split at h <;> (simp_all; try tauto)
      · rcases List.mem_cons.1 h with h | h
        · exact .inl (h ▸ List.mem_cons_self)
        · exact (ih h).imp_left (List.mem_cons_of_mem _)

/-- A write keeps the canonical form. -/
theorem Memory.write_wf {m : Memory} (h : m.wf) (a : Nat) (b : Byte) : (m.write a b).wf := by
  induction m with
  | nil =>
    simp only [Memory.write]
    split
    · exact Memory.wf_nil
    · exact (Memory.wf_cons _ _).2 ⟨by simp, by assumption, Memory.wf_nil⟩
  | cons c m ih =>
    obtain ⟨k, v⟩ := c
    obtain ⟨hlt, hv, hm⟩ := (Memory.wf_cons _ _).1 h
    simp only [Memory.write]
    split
    · rename_i hak
      split
      · exact h
      · refine (Memory.wf_cons _ _).2 ⟨?_, by assumption, h⟩
        intro d hd
        rcases List.mem_cons.1 hd with rfl | hd
        · exact hak
        · exact lt_trans hak (hlt d hd)
    · split
      · rename_i hak
        split
        · exact hm
        · exact (Memory.wf_cons _ _).2 ⟨fun d hd => hak ▸ hlt d hd, by assumption, hm⟩
      · refine (Memory.wf_cons _ _).2 ⟨?_, hv, ih hm⟩
        intro d hd
        rcases Memory.mem_write hd with hd | ⟨rfl, -⟩
        · exact hlt d hd
        · simp only; omega

/-- What a read gives after a write. -/
theorem Memory.read_write {m : Memory} (h : m.wf) (a : Nat) (b : Byte) (x : Nat) :
    (m.write a b).read x = if x = a then b else m.read x := by
  induction m with
  | nil =>
    simp only [Memory.write]
    split
    · rename_i hb; simp [hb]
    · simp only [Memory.read_cons, Memory.read_nil, eq_comm]
  | cons c m ih =>
    obtain ⟨k, v⟩ := c
    obtain ⟨hlt, hv, hm⟩ := (Memory.wf_cons _ _).1 h
    simp only [Memory.write]
    split
    · rename_i hak
      split
      · rename_i hb
        split
        · rename_i hx
          rw [hb, hx]
          refine Memory.read_of_lt fun d hd => ?_
          rcases List.mem_cons.1 hd with rfl | hd
          · exact hak
          · exact lt_trans hak (hlt d hd)
        · rfl
      · rw [Memory.read_cons]
        simp only [eq_comm]
    · split
      · rename_i hak
        subst hak
        split
        · rename_i hb
          split
          · rename_i hx
            rw [hb, hx, Memory.read_of_lt hlt]
          · rename_i hx
            rw [Memory.read_cons, if_neg (fun h => hx h.symm)]
        · simp only [Memory.read_cons, eq_comm]
          split <;> rfl
      · rename_i hak
        simp only [Memory.read_cons, ih hm]
        split
        · rename_i hkx
          rw [if_neg (by omega)]
        · rfl

/-- The bytes of a word put together again. -/
theorem le32_byteOf (w : Word) : le32 (byteOf w 0) (byteOf w 1) (byteOf w 2) (byteOf w 3) = w := by
  apply BitVec.eq_of_getLsbD_eq
  intro i hi
  simp only [le32, byteOf, BitVec.getLsbD_append, BitVec.getLsbD_extractLsb']
  interval_cases i <;> simp

/-- The bytes of a word put together: byte j of `le32`. -/
theorem byteOf_le32 (b0 b1 b2 b3 : Byte) :
    byteOf (le32 b0 b1 b2 b3) 0 = b0 ∧ byteOf (le32 b0 b1 b2 b3) 1 = b1 ∧ byteOf (le32 b0 b1 b2 b3) 2 = b2 ∧
      byteOf (le32 b0 b1 b2 b3) 3 = b3 := by
  refine ⟨?_, ?_, ?_, ?_⟩ <;>
    (apply BitVec.eq_of_getLsbD_eq
     intro i hi
     simp only [le32, byteOf, BitVec.getLsbD_append, BitVec.getLsbD_extractLsb']
     interval_cases i <;> simp)

/-- A word write keeps the canonical form. -/
theorem Memory.writeWord_wf {m : Memory} (h : m.wf) (i : Nat) (w : Word) : (m.writeWord i w).wf :=
  Memory.write_wf (Memory.write_wf (Memory.write_wf (Memory.write_wf h _ _) _ _) _ _) _ _

/-- What a byte read gives after a word write. -/
theorem Memory.read_writeWord {m : Memory} (h : m.wf) (i : Nat) (w : Word) (x : Nat) :
    (m.writeWord i w).read x = if x / 4 = i then byteOf w (x % 4) else m.read x := by
  have h0 := Memory.write_wf h (4 * i) (byteOf w 0)
  have h1 := Memory.write_wf h0 (4 * i + 1) (byteOf w 1)
  have h2 := Memory.write_wf h1 (4 * i + 2) (byteOf w 2)
  rw [Memory.writeWord, Memory.read_write h2, Memory.read_write h1, Memory.read_write h0, Memory.read_write h]
  by_cases hx : x / 4 = i
  · have h4 : x % 4 < 4 := Nat.mod_lt _ (by decide)
    obtain ⟨r, hr⟩ : ∃ r, r = x % 4 := ⟨_, rfl⟩
    have hxe : x = 4 * i + r := by omega
    rw [if_pos hx, ← hr]
    rw [← hr] at h4
    subst hxe
    interval_cases r <;> simp
  · rw [if_neg hx, if_neg (by omega), if_neg (by omega), if_neg (by omega), if_neg (by omega)]

/-- What a word read gives after a word write. -/
theorem Memory.readWord_writeWord {m : Memory} (h : m.wf) (i : Nat) (w : Word) (x : Nat) :
    (m.writeWord i w).readWord x = if x = i then w else m.readWord x := by
  simp only [Memory.readWord, Memory.read_writeWord h]
  have e0 : 4 * x / 4 = x := by omega
  have e1 : (4 * x + 1) / 4 = x := by omega
  have e2 : (4 * x + 2) / 4 = x := by omega
  have e3 : (4 * x + 3) / 4 = x := by omega
  have r0 : 4 * x % 4 = 0 := by omega
  have r1 : (4 * x + 1) % 4 = 1 := by omega
  have r2 : (4 * x + 2) % 4 = 2 := by omega
  have r3 : (4 * x + 3) % 4 = 3 := by omega
  simp only [e0, e1, e2, e3, r0, r1, r2, r3]
  split
  · exact le32_byteOf w
  · rfl

end Sys2Proof.Machine
end

