-- ==== Sys2Proof/Laws/State.lean ====
section
/-! SUPPORT. The fields of a state after each named update: one lemma per field, so that no proof unfolds a record
update. -/

namespace Sys2Proof.Machine

open Sys2Proof

variable (s : State)

/-! ### accept -/

@[simp] theorem accept_cmd (v : Word) : (accept v s).cmd = v := rfl
@[simp] theorem accept_done (v : Word) : (accept v s).done = false := rfl
@[simp] theorem accept_pktValid (v : Word) : (accept v s).pktValid = s.pktValid := rfl
@[simp] theorem accept_ovr (v : Word) : (accept v s).ovr = s.ovr := rfl
@[simp] theorem accept_chkPass (v : Word) : (accept v s).chkPass = s.chkPass := rfl
@[simp] theorem accept_err (v : Word) : (accept v s).err = .ok := rfl
@[simp] theorem accept_crcWidth (v : Word) : (accept v s).crcWidth = s.crcWidth := rfl
@[simp] theorem accept_crcPoly (v : Word) : (accept v s).crcPoly = s.crcPoly := rfl
@[simp] theorem accept_crcReg (v : Word) : (accept v s).crcReg = s.crcReg := rfl
@[simp] theorem accept_curWidth (v : Word) : (accept v s).curWidth = s.curWidth := rfl
@[simp] theorem accept_curPoly (v : Word) : (accept v s).curPoly = s.curPoly := rfl
@[simp] theorem accept_chkPayload (v : Word) : (accept v s).chkPayload = s.chkPayload := rfl
@[simp] theorem accept_chkSum (v : Word) : (accept v s).chkSum = s.chkSum := rfl
@[simp] theorem accept_chkRem (v : Word) : (accept v s).chkRem = s.chkRem := rfl
@[simp] theorem accept_scanMax (v : Word) : (accept v s).scanMax = s.scanMax := rfl
@[simp] theorem accept_sensorNum (v : Word) : (accept v s).sensorNum = s.sensorNum := rfl
@[simp] theorem accept_hdr (v : Word) : (accept v s).hdr = s.hdr := rfl
@[simp] theorem accept_crcRx (v : Word) : (accept v s).crcRx = s.crcRx := rfl
@[simp] theorem accept_crcCalc (v : Word) : (accept v s).crcCalc = s.crcCalc := rfl
@[simp] theorem accept_tblWidth (v : Word) : (accept v s).tblWidth = s.tblWidth := rfl
@[simp] theorem accept_tblPoly (v : Word) : (accept v s).tblPoly = s.tblPoly := rfl
@[simp] theorem accept_tblValid (v : Word) : (accept v s).tblValid = s.tblValid := rfl
@[simp] theorem accept_table (v : Word) : (accept v s).table = s.table := rfl
@[simp] theorem accept_pkt (v : Word) : (accept v s).pkt = s.pkt := rfl
@[simp] theorem accept_fbuf (v : Word) : (accept v s).fbuf = s.fbuf := rfl
@[simp] theorem accept_syncState (v : Word) : (accept v s).syncState = s.syncState := rfl
@[simp] theorem accept_seq (v : Word) : (accept v s).seq = s.seq := rfl
@[simp] theorem accept_agenda (v : Word) : (accept v s).agenda = s.agenda := rfl
@[simp] theorem accept_port (v : Word) : (accept v s).port = s.port := rfl
@[simp] theorem accept_bus (v : Word) : (accept v s).bus = s.bus := rfl
@[simp] theorem accept_freeCount (v : Word) : (accept v s).freeCount = s.freeCount := rfl

/-! ### finish -/

@[simp] theorem finish_cmd (c : ErrCode) : (finish c s).cmd = s.cmd := rfl
@[simp] theorem finish_done (c : ErrCode) : (finish c s).done = true := rfl
@[simp] theorem finish_pktValid (c : ErrCode) : (finish c s).pktValid = s.pktValid := rfl
@[simp] theorem finish_ovr (c : ErrCode) : (finish c s).ovr = s.ovr := rfl
@[simp] theorem finish_chkPass (c : ErrCode) : (finish c s).chkPass = s.chkPass := rfl
@[simp] theorem finish_err (c : ErrCode) : (finish c s).err = c := rfl
@[simp] theorem finish_crcWidth (c : ErrCode) : (finish c s).crcWidth = s.crcWidth := rfl
@[simp] theorem finish_crcPoly (c : ErrCode) : (finish c s).crcPoly = s.crcPoly := rfl
@[simp] theorem finish_crcReg (c : ErrCode) : (finish c s).crcReg = s.crcReg := rfl
@[simp] theorem finish_curWidth (c : ErrCode) : (finish c s).curWidth = s.curWidth := rfl
@[simp] theorem finish_curPoly (c : ErrCode) : (finish c s).curPoly = s.curPoly := rfl
@[simp] theorem finish_chkPayload (c : ErrCode) : (finish c s).chkPayload = s.chkPayload := rfl
@[simp] theorem finish_chkSum (c : ErrCode) : (finish c s).chkSum = s.chkSum := rfl
@[simp] theorem finish_chkRem (c : ErrCode) : (finish c s).chkRem = s.chkRem := rfl
@[simp] theorem finish_scanMax (c : ErrCode) : (finish c s).scanMax = s.scanMax := rfl
@[simp] theorem finish_sensorNum (c : ErrCode) : (finish c s).sensorNum = s.sensorNum := rfl
@[simp] theorem finish_hdr (c : ErrCode) : (finish c s).hdr = s.hdr := rfl
@[simp] theorem finish_crcRx (c : ErrCode) : (finish c s).crcRx = s.crcRx := rfl
@[simp] theorem finish_crcCalc (c : ErrCode) : (finish c s).crcCalc = s.crcCalc := rfl
@[simp] theorem finish_tblWidth (c : ErrCode) : (finish c s).tblWidth = s.tblWidth := rfl
@[simp] theorem finish_tblPoly (c : ErrCode) : (finish c s).tblPoly = s.tblPoly := rfl
@[simp] theorem finish_tblValid (c : ErrCode) : (finish c s).tblValid = s.tblValid := rfl
@[simp] theorem finish_table (c : ErrCode) : (finish c s).table = s.table := rfl
@[simp] theorem finish_pkt (c : ErrCode) : (finish c s).pkt = s.pkt := rfl
@[simp] theorem finish_fbuf (c : ErrCode) : (finish c s).fbuf = s.fbuf := rfl
@[simp] theorem finish_syncState (c : ErrCode) : (finish c s).syncState = s.syncState := rfl
@[simp] theorem finish_seq (c : ErrCode) : (finish c s).seq = .idle := rfl
@[simp] theorem finish_agenda (c : ErrCode) : (finish c s).agenda = s.agenda := rfl
@[simp] theorem finish_port (c : ErrCode) : (finish c s).port = s.port := rfl
@[simp] theorem finish_bus (c : ErrCode) : (finish c s).bus = s.bus := rfl
@[simp] theorem finish_freeCount (c : ErrCode) : (finish c s).freeCount = s.freeCount := rfl

/-! ### start -/

@[simp] theorem start_cmd (c : Running) : (start c s).cmd = s.cmd := rfl
@[simp] theorem start_done (c : Running) : (start c s).done = s.done := rfl
@[simp] theorem start_pktValid (c : Running) : (start c s).pktValid = s.pktValid := rfl
@[simp] theorem start_ovr (c : Running) : (start c s).ovr = s.ovr := rfl
@[simp] theorem start_chkPass (c : Running) : (start c s).chkPass = s.chkPass := rfl
@[simp] theorem start_err (c : Running) : (start c s).err = s.err := rfl
@[simp] theorem start_crcWidth (c : Running) : (start c s).crcWidth = s.crcWidth := rfl
@[simp] theorem start_crcPoly (c : Running) : (start c s).crcPoly = s.crcPoly := rfl
@[simp] theorem start_crcReg (c : Running) : (start c s).crcReg = s.crcReg := rfl
@[simp] theorem start_curWidth (c : Running) : (start c s).curWidth = s.curWidth := rfl
@[simp] theorem start_curPoly (c : Running) : (start c s).curPoly = s.curPoly := rfl
@[simp] theorem start_chkPayload (c : Running) : (start c s).chkPayload = s.chkPayload := rfl
@[simp] theorem start_chkSum (c : Running) : (start c s).chkSum = s.chkSum := rfl
@[simp] theorem start_chkRem (c : Running) : (start c s).chkRem = s.chkRem := rfl
@[simp] theorem start_scanMax (c : Running) : (start c s).scanMax = s.scanMax := rfl
@[simp] theorem start_sensorNum (c : Running) : (start c s).sensorNum = s.sensorNum := rfl
@[simp] theorem start_hdr (c : Running) : (start c s).hdr = s.hdr := rfl
@[simp] theorem start_crcRx (c : Running) : (start c s).crcRx = s.crcRx := rfl
@[simp] theorem start_crcCalc (c : Running) : (start c s).crcCalc = s.crcCalc := rfl
@[simp] theorem start_tblWidth (c : Running) : (start c s).tblWidth = s.tblWidth := rfl
@[simp] theorem start_tblPoly (c : Running) : (start c s).tblPoly = s.tblPoly := rfl
@[simp] theorem start_tblValid (c : Running) : (start c s).tblValid = s.tblValid := rfl
@[simp] theorem start_table (c : Running) : (start c s).table = s.table := rfl
@[simp] theorem start_pkt (c : Running) : (start c s).pkt = s.pkt := rfl
@[simp] theorem start_fbuf (c : Running) : (start c s).fbuf = s.fbuf := rfl
@[simp] theorem start_syncState (c : Running) : (start c s).syncState = s.syncState := rfl
@[simp] theorem start_seq (c : Running) : (start c s).seq = .run c := rfl
@[simp] theorem start_agenda (c : Running) : (start c s).agenda = s.agenda := rfl
@[simp] theorem start_port (c : Running) : (start c s).port = s.port := rfl
@[simp] theorem start_bus (c : Running) : (start c s).bus = s.bus := rfl
@[simp] theorem start_freeCount (c : Running) : (start c s).freeCount = s.freeCount := rfl

/-! ### answer -/

@[simp] theorem answer_cmd (b : BusAnswer) : (answer b s).cmd = s.cmd := rfl
@[simp] theorem answer_done (b : BusAnswer) : (answer b s).done = s.done := rfl
@[simp] theorem answer_pktValid (b : BusAnswer) : (answer b s).pktValid = s.pktValid := rfl
@[simp] theorem answer_ovr (b : BusAnswer) : (answer b s).ovr = s.ovr := rfl
@[simp] theorem answer_chkPass (b : BusAnswer) : (answer b s).chkPass = s.chkPass := rfl
@[simp] theorem answer_err (b : BusAnswer) : (answer b s).err = s.err := rfl
@[simp] theorem answer_crcWidth (b : BusAnswer) : (answer b s).crcWidth = s.crcWidth := rfl
@[simp] theorem answer_crcPoly (b : BusAnswer) : (answer b s).crcPoly = s.crcPoly := rfl
@[simp] theorem answer_crcReg (b : BusAnswer) : (answer b s).crcReg = s.crcReg := rfl
@[simp] theorem answer_curWidth (b : BusAnswer) : (answer b s).curWidth = s.curWidth := rfl
@[simp] theorem answer_curPoly (b : BusAnswer) : (answer b s).curPoly = s.curPoly := rfl
@[simp] theorem answer_chkPayload (b : BusAnswer) : (answer b s).chkPayload = s.chkPayload := rfl
@[simp] theorem answer_chkSum (b : BusAnswer) : (answer b s).chkSum = s.chkSum := rfl
@[simp] theorem answer_chkRem (b : BusAnswer) : (answer b s).chkRem = s.chkRem := rfl
@[simp] theorem answer_scanMax (b : BusAnswer) : (answer b s).scanMax = s.scanMax := rfl
@[simp] theorem answer_sensorNum (b : BusAnswer) : (answer b s).sensorNum = s.sensorNum := rfl
@[simp] theorem answer_hdr (b : BusAnswer) : (answer b s).hdr = s.hdr := rfl
@[simp] theorem answer_crcRx (b : BusAnswer) : (answer b s).crcRx = s.crcRx := rfl
@[simp] theorem answer_crcCalc (b : BusAnswer) : (answer b s).crcCalc = s.crcCalc := rfl
@[simp] theorem answer_tblWidth (b : BusAnswer) : (answer b s).tblWidth = s.tblWidth := rfl
@[simp] theorem answer_tblPoly (b : BusAnswer) : (answer b s).tblPoly = s.tblPoly := rfl
@[simp] theorem answer_tblValid (b : BusAnswer) : (answer b s).tblValid = s.tblValid := rfl
@[simp] theorem answer_table (b : BusAnswer) : (answer b s).table = s.table := rfl
@[simp] theorem answer_pkt (b : BusAnswer) : (answer b s).pkt = s.pkt := rfl
@[simp] theorem answer_fbuf (b : BusAnswer) : (answer b s).fbuf = s.fbuf := rfl
@[simp] theorem answer_syncState (b : BusAnswer) : (answer b s).syncState = s.syncState := rfl
@[simp] theorem answer_seq (b : BusAnswer) : (answer b s).seq = s.seq := rfl
@[simp] theorem answer_agenda (b : BusAnswer) : (answer b s).agenda = s.agenda := rfl
@[simp] theorem answer_port (b : BusAnswer) : (answer b s).port = s.port := rfl
@[simp] theorem answer_bus (b : BusAnswer) : (answer b s).bus = b := rfl
@[simp] theorem answer_freeCount (b : BusAnswer) : (answer b s).freeCount = s.freeCount := rfl

/-! ### refuseWrite -/

@[simp] theorem refuseWrite_cmd : (refuseWrite s).cmd = s.cmd := rfl
@[simp] theorem refuseWrite_done : (refuseWrite s).done = s.done := rfl
@[simp] theorem refuseWrite_pktValid : (refuseWrite s).pktValid = s.pktValid := rfl
@[simp] theorem refuseWrite_ovr : (refuseWrite s).ovr = true := rfl
@[simp] theorem refuseWrite_chkPass : (refuseWrite s).chkPass = s.chkPass := rfl
@[simp] theorem refuseWrite_err : (refuseWrite s).err = s.err := rfl
@[simp] theorem refuseWrite_crcWidth : (refuseWrite s).crcWidth = s.crcWidth := rfl
@[simp] theorem refuseWrite_crcPoly : (refuseWrite s).crcPoly = s.crcPoly := rfl
@[simp] theorem refuseWrite_crcReg : (refuseWrite s).crcReg = s.crcReg := rfl
@[simp] theorem refuseWrite_curWidth : (refuseWrite s).curWidth = s.curWidth := rfl
@[simp] theorem refuseWrite_curPoly : (refuseWrite s).curPoly = s.curPoly := rfl
@[simp] theorem refuseWrite_chkPayload : (refuseWrite s).chkPayload = s.chkPayload := rfl
@[simp] theorem refuseWrite_chkSum : (refuseWrite s).chkSum = s.chkSum := rfl
@[simp] theorem refuseWrite_chkRem : (refuseWrite s).chkRem = s.chkRem := rfl
@[simp] theorem refuseWrite_scanMax : (refuseWrite s).scanMax = s.scanMax := rfl
@[simp] theorem refuseWrite_sensorNum : (refuseWrite s).sensorNum = s.sensorNum := rfl
@[simp] theorem refuseWrite_hdr : (refuseWrite s).hdr = s.hdr := rfl
@[simp] theorem refuseWrite_crcRx : (refuseWrite s).crcRx = s.crcRx := rfl
@[simp] theorem refuseWrite_crcCalc : (refuseWrite s).crcCalc = s.crcCalc := rfl
@[simp] theorem refuseWrite_tblWidth : (refuseWrite s).tblWidth = s.tblWidth := rfl
@[simp] theorem refuseWrite_tblPoly : (refuseWrite s).tblPoly = s.tblPoly := rfl
@[simp] theorem refuseWrite_tblValid : (refuseWrite s).tblValid = s.tblValid := rfl
@[simp] theorem refuseWrite_table : (refuseWrite s).table = s.table := rfl
@[simp] theorem refuseWrite_pkt : (refuseWrite s).pkt = s.pkt := rfl
@[simp] theorem refuseWrite_fbuf : (refuseWrite s).fbuf = s.fbuf := rfl
@[simp] theorem refuseWrite_syncState : (refuseWrite s).syncState = s.syncState := rfl
@[simp] theorem refuseWrite_seq : (refuseWrite s).seq = s.seq := rfl
@[simp] theorem refuseWrite_agenda : (refuseWrite s).agenda = s.agenda := rfl
@[simp] theorem refuseWrite_port : (refuseWrite s).port = s.port := rfl
@[simp] theorem refuseWrite_bus : (refuseWrite s).bus = s.bus := rfl
@[simp] theorem refuseWrite_freeCount : (refuseWrite s).freeCount = s.freeCount := rfl

/-! ### storeTable -/

@[simp] theorem storeTable_cmd (i : Nat) (v : Word) : (storeTable i v s).cmd = s.cmd := rfl
@[simp] theorem storeTable_done (i : Nat) (v : Word) : (storeTable i v s).done = s.done := rfl
@[simp] theorem storeTable_pktValid (i : Nat) (v : Word) : (storeTable i v s).pktValid = s.pktValid := rfl
@[simp] theorem storeTable_ovr (i : Nat) (v : Word) : (storeTable i v s).ovr = s.ovr := rfl
@[simp] theorem storeTable_chkPass (i : Nat) (v : Word) : (storeTable i v s).chkPass = s.chkPass := rfl
@[simp] theorem storeTable_err (i : Nat) (v : Word) : (storeTable i v s).err = s.err := rfl
@[simp] theorem storeTable_crcWidth (i : Nat) (v : Word) : (storeTable i v s).crcWidth = s.crcWidth := rfl
@[simp] theorem storeTable_crcPoly (i : Nat) (v : Word) : (storeTable i v s).crcPoly = s.crcPoly := rfl
@[simp] theorem storeTable_crcReg (i : Nat) (v : Word) : (storeTable i v s).crcReg = s.crcReg := rfl
@[simp] theorem storeTable_curWidth (i : Nat) (v : Word) : (storeTable i v s).curWidth = s.curWidth := rfl
@[simp] theorem storeTable_curPoly (i : Nat) (v : Word) : (storeTable i v s).curPoly = s.curPoly := rfl
@[simp] theorem storeTable_chkPayload (i : Nat) (v : Word) : (storeTable i v s).chkPayload = s.chkPayload := rfl
@[simp] theorem storeTable_chkSum (i : Nat) (v : Word) : (storeTable i v s).chkSum = s.chkSum := rfl
@[simp] theorem storeTable_chkRem (i : Nat) (v : Word) : (storeTable i v s).chkRem = s.chkRem := rfl
@[simp] theorem storeTable_scanMax (i : Nat) (v : Word) : (storeTable i v s).scanMax = s.scanMax := rfl
@[simp] theorem storeTable_sensorNum (i : Nat) (v : Word) : (storeTable i v s).sensorNum = s.sensorNum := rfl
@[simp] theorem storeTable_hdr (i : Nat) (v : Word) : (storeTable i v s).hdr = s.hdr := rfl
@[simp] theorem storeTable_crcRx (i : Nat) (v : Word) : (storeTable i v s).crcRx = s.crcRx := rfl
@[simp] theorem storeTable_crcCalc (i : Nat) (v : Word) : (storeTable i v s).crcCalc = s.crcCalc := rfl
@[simp] theorem storeTable_tblWidth (i : Nat) (v : Word) : (storeTable i v s).tblWidth = s.tblWidth := rfl
@[simp] theorem storeTable_tblPoly (i : Nat) (v : Word) : (storeTable i v s).tblPoly = s.tblPoly := rfl
@[simp] theorem storeTable_tblValid (i : Nat) (v : Word) : (storeTable i v s).tblValid = s.tblValid := rfl
@[simp] theorem storeTable_table (i : Nat) (v : Word) : (storeTable i v s).table = s.table.writeWord i v := rfl
@[simp] theorem storeTable_pkt (i : Nat) (v : Word) : (storeTable i v s).pkt = s.pkt := rfl
@[simp] theorem storeTable_fbuf (i : Nat) (v : Word) : (storeTable i v s).fbuf = s.fbuf := rfl
@[simp] theorem storeTable_syncState (i : Nat) (v : Word) : (storeTable i v s).syncState = s.syncState := rfl
@[simp] theorem storeTable_seq (i : Nat) (v : Word) : (storeTable i v s).seq = s.seq := rfl
@[simp] theorem storeTable_agenda (i : Nat) (v : Word) : (storeTable i v s).agenda = s.agenda := rfl
@[simp] theorem storeTable_port (i : Nat) (v : Word) : (storeTable i v s).port = s.port := rfl
@[simp] theorem storeTable_bus (i : Nat) (v : Word) : (storeTable i v s).bus = s.bus := rfl
@[simp] theorem storeTable_freeCount (i : Nat) (v : Word) : (storeTable i v s).freeCount = s.freeCount := rfl

/-! ### commit -/

@[simp] theorem commit_cmd : (commit s).cmd = s.cmd := rfl
@[simp] theorem commit_done : (commit s).done = s.done := rfl
@[simp] theorem commit_pktValid : (commit s).pktValid = true := rfl
@[simp] theorem commit_ovr : (commit s).ovr = s.ovr := rfl
@[simp] theorem commit_chkPass : (commit s).chkPass = s.chkPass := rfl
@[simp] theorem commit_err : (commit s).err = s.err := rfl
@[simp] theorem commit_crcWidth : (commit s).crcWidth = s.crcWidth := rfl
@[simp] theorem commit_crcPoly : (commit s).crcPoly = s.crcPoly := rfl
@[simp] theorem commit_crcReg : (commit s).crcReg = s.crcReg := rfl
@[simp] theorem commit_curWidth : (commit s).curWidth = s.curWidth := rfl
@[simp] theorem commit_curPoly : (commit s).curPoly = s.curPoly := rfl
@[simp] theorem commit_chkPayload : (commit s).chkPayload = s.chkPayload := rfl
@[simp] theorem commit_chkSum : (commit s).chkSum = s.chkSum := rfl
@[simp] theorem commit_chkRem : (commit s).chkRem = s.chkRem := rfl
@[simp] theorem commit_scanMax : (commit s).scanMax = s.scanMax := rfl
@[simp] theorem commit_sensorNum : (commit s).sensorNum = s.sensorNum := rfl
@[simp] theorem commit_hdr : (commit s).hdr = s.hdr := rfl
@[simp] theorem commit_crcRx : (commit s).crcRx = s.crcRx := rfl
@[simp] theorem commit_crcCalc : (commit s).crcCalc = s.crcCalc := rfl
@[simp] theorem commit_tblWidth : (commit s).tblWidth = s.tblWidth := rfl
@[simp] theorem commit_tblPoly : (commit s).tblPoly = s.tblPoly := rfl
@[simp] theorem commit_tblValid : (commit s).tblValid = s.tblValid := rfl
@[simp] theorem commit_table : (commit s).table = s.table := rfl
@[simp] theorem commit_pkt : (commit s).pkt = unpack s := rfl
@[simp] theorem commit_fbuf : (commit s).fbuf = s.fbuf := rfl
@[simp] theorem commit_syncState : (commit s).syncState = s.syncState := rfl
@[simp] theorem commit_seq : (commit s).seq = s.seq := rfl
@[simp] theorem commit_agenda : (commit s).agenda = s.agenda := rfl
@[simp] theorem commit_port : (commit s).port = s.port := rfl
@[simp] theorem commit_bus : (commit s).bus = s.bus := rfl
@[simp] theorem commit_freeCount : (commit s).freeCount = s.freeCount := rfl

/-! ### recordCrcs -/

@[simp] theorem recordCrcs_cmd : (recordCrcs s).cmd = s.cmd := rfl
@[simp] theorem recordCrcs_done : (recordCrcs s).done = s.done := rfl
@[simp] theorem recordCrcs_pktValid : (recordCrcs s).pktValid = s.pktValid := rfl
@[simp] theorem recordCrcs_ovr : (recordCrcs s).ovr = s.ovr := rfl
@[simp] theorem recordCrcs_chkPass : (recordCrcs s).chkPass = s.chkPass := rfl
@[simp] theorem recordCrcs_err : (recordCrcs s).err = s.err := rfl
@[simp] theorem recordCrcs_crcWidth : (recordCrcs s).crcWidth = s.crcWidth := rfl
@[simp] theorem recordCrcs_crcPoly : (recordCrcs s).crcPoly = s.crcPoly := rfl
@[simp] theorem recordCrcs_crcReg : (recordCrcs s).crcReg = s.crcReg := rfl
@[simp] theorem recordCrcs_curWidth : (recordCrcs s).curWidth = s.curWidth := rfl
@[simp] theorem recordCrcs_curPoly : (recordCrcs s).curPoly = s.curPoly := rfl
@[simp] theorem recordCrcs_chkPayload : (recordCrcs s).chkPayload = s.chkPayload := rfl
@[simp] theorem recordCrcs_chkSum : (recordCrcs s).chkSum = s.chkSum := rfl
@[simp] theorem recordCrcs_chkRem : (recordCrcs s).chkRem = s.chkRem := rfl
@[simp] theorem recordCrcs_scanMax : (recordCrcs s).scanMax = s.scanMax := rfl
@[simp] theorem recordCrcs_sensorNum : (recordCrcs s).sensorNum = s.sensorNum := rfl
@[simp] theorem recordCrcs_hdr : (recordCrcs s).hdr = s.hdr := rfl
@[simp] theorem recordCrcs_crcRx : (recordCrcs s).crcRx = receivedCrc s := rfl
@[simp] theorem recordCrcs_crcCalc : (recordCrcs s).crcCalc = calcCrc s := rfl
@[simp] theorem recordCrcs_tblWidth : (recordCrcs s).tblWidth = s.tblWidth := rfl
@[simp] theorem recordCrcs_tblPoly : (recordCrcs s).tblPoly = s.tblPoly := rfl
@[simp] theorem recordCrcs_tblValid : (recordCrcs s).tblValid = s.tblValid := rfl
@[simp] theorem recordCrcs_table : (recordCrcs s).table = s.table := rfl
@[simp] theorem recordCrcs_pkt : (recordCrcs s).pkt = s.pkt := rfl
@[simp] theorem recordCrcs_fbuf : (recordCrcs s).fbuf = s.fbuf := rfl
@[simp] theorem recordCrcs_syncState : (recordCrcs s).syncState = s.syncState := rfl
@[simp] theorem recordCrcs_seq : (recordCrcs s).seq = s.seq := rfl
@[simp] theorem recordCrcs_agenda : (recordCrcs s).agenda = s.agenda := rfl
@[simp] theorem recordCrcs_port : (recordCrcs s).port = s.port := rfl
@[simp] theorem recordCrcs_bus : (recordCrcs s).bus = s.bus := rfl
@[simp] theorem recordCrcs_freeCount : (recordCrcs s).freeCount = s.freeCount := rfl

/-! ### withAgenda -/

@[simp] theorem withAgenda_cmd (l : List Event) : (withAgenda l s).cmd = s.cmd := rfl
@[simp] theorem withAgenda_done (l : List Event) : (withAgenda l s).done = s.done := rfl
@[simp] theorem withAgenda_pktValid (l : List Event) : (withAgenda l s).pktValid = s.pktValid := rfl
@[simp] theorem withAgenda_ovr (l : List Event) : (withAgenda l s).ovr = s.ovr := rfl
@[simp] theorem withAgenda_chkPass (l : List Event) : (withAgenda l s).chkPass = s.chkPass := rfl
@[simp] theorem withAgenda_err (l : List Event) : (withAgenda l s).err = s.err := rfl
@[simp] theorem withAgenda_crcWidth (l : List Event) : (withAgenda l s).crcWidth = s.crcWidth := rfl
@[simp] theorem withAgenda_crcPoly (l : List Event) : (withAgenda l s).crcPoly = s.crcPoly := rfl
@[simp] theorem withAgenda_crcReg (l : List Event) : (withAgenda l s).crcReg = s.crcReg := rfl
@[simp] theorem withAgenda_curWidth (l : List Event) : (withAgenda l s).curWidth = s.curWidth := rfl
@[simp] theorem withAgenda_curPoly (l : List Event) : (withAgenda l s).curPoly = s.curPoly := rfl
@[simp] theorem withAgenda_chkPayload (l : List Event) : (withAgenda l s).chkPayload = s.chkPayload := rfl
@[simp] theorem withAgenda_chkSum (l : List Event) : (withAgenda l s).chkSum = s.chkSum := rfl
@[simp] theorem withAgenda_chkRem (l : List Event) : (withAgenda l s).chkRem = s.chkRem := rfl
@[simp] theorem withAgenda_scanMax (l : List Event) : (withAgenda l s).scanMax = s.scanMax := rfl
@[simp] theorem withAgenda_sensorNum (l : List Event) : (withAgenda l s).sensorNum = s.sensorNum := rfl
@[simp] theorem withAgenda_hdr (l : List Event) : (withAgenda l s).hdr = s.hdr := rfl
@[simp] theorem withAgenda_crcRx (l : List Event) : (withAgenda l s).crcRx = s.crcRx := rfl
@[simp] theorem withAgenda_crcCalc (l : List Event) : (withAgenda l s).crcCalc = s.crcCalc := rfl
@[simp] theorem withAgenda_tblWidth (l : List Event) : (withAgenda l s).tblWidth = s.tblWidth := rfl
@[simp] theorem withAgenda_tblPoly (l : List Event) : (withAgenda l s).tblPoly = s.tblPoly := rfl
@[simp] theorem withAgenda_tblValid (l : List Event) : (withAgenda l s).tblValid = s.tblValid := rfl
@[simp] theorem withAgenda_table (l : List Event) : (withAgenda l s).table = s.table := rfl
@[simp] theorem withAgenda_pkt (l : List Event) : (withAgenda l s).pkt = s.pkt := rfl
@[simp] theorem withAgenda_fbuf (l : List Event) : (withAgenda l s).fbuf = s.fbuf := rfl
@[simp] theorem withAgenda_syncState (l : List Event) : (withAgenda l s).syncState = s.syncState := rfl
@[simp] theorem withAgenda_seq (l : List Event) : (withAgenda l s).seq = s.seq := rfl
@[simp] theorem withAgenda_agenda (l : List Event) : (withAgenda l s).agenda = l := rfl
@[simp] theorem withAgenda_port (l : List Event) : (withAgenda l s).port = s.port := rfl
@[simp] theorem withAgenda_bus (l : List Event) : (withAgenda l s).bus = s.bus := rfl
@[simp] theorem withAgenda_freeCount (l : List Event) : (withAgenda l s).freeCount = s.freeCount := rfl

/-! ### portAnswer -/

@[simp] theorem portAnswer_cmd (a : PortAnswer) : (portAnswer a s).cmd = s.cmd := rfl
@[simp] theorem portAnswer_done (a : PortAnswer) : (portAnswer a s).done = s.done := rfl
@[simp] theorem portAnswer_pktValid (a : PortAnswer) : (portAnswer a s).pktValid = s.pktValid := rfl
@[simp] theorem portAnswer_ovr (a : PortAnswer) : (portAnswer a s).ovr = s.ovr := rfl
@[simp] theorem portAnswer_chkPass (a : PortAnswer) : (portAnswer a s).chkPass = s.chkPass := rfl
@[simp] theorem portAnswer_err (a : PortAnswer) : (portAnswer a s).err = s.err := rfl
@[simp] theorem portAnswer_crcWidth (a : PortAnswer) : (portAnswer a s).crcWidth = s.crcWidth := rfl
@[simp] theorem portAnswer_crcPoly (a : PortAnswer) : (portAnswer a s).crcPoly = s.crcPoly := rfl
@[simp] theorem portAnswer_crcReg (a : PortAnswer) : (portAnswer a s).crcReg = s.crcReg := rfl
@[simp] theorem portAnswer_curWidth (a : PortAnswer) : (portAnswer a s).curWidth = s.curWidth := rfl
@[simp] theorem portAnswer_curPoly (a : PortAnswer) : (portAnswer a s).curPoly = s.curPoly := rfl
@[simp] theorem portAnswer_chkPayload (a : PortAnswer) : (portAnswer a s).chkPayload = s.chkPayload := rfl
@[simp] theorem portAnswer_chkSum (a : PortAnswer) : (portAnswer a s).chkSum = s.chkSum := rfl
@[simp] theorem portAnswer_chkRem (a : PortAnswer) : (portAnswer a s).chkRem = s.chkRem := rfl
@[simp] theorem portAnswer_scanMax (a : PortAnswer) : (portAnswer a s).scanMax = s.scanMax := rfl
@[simp] theorem portAnswer_sensorNum (a : PortAnswer) : (portAnswer a s).sensorNum = s.sensorNum := rfl
@[simp] theorem portAnswer_hdr (a : PortAnswer) : (portAnswer a s).hdr = s.hdr := rfl
@[simp] theorem portAnswer_crcRx (a : PortAnswer) : (portAnswer a s).crcRx = s.crcRx := rfl
@[simp] theorem portAnswer_crcCalc (a : PortAnswer) : (portAnswer a s).crcCalc = s.crcCalc := rfl
@[simp] theorem portAnswer_tblWidth (a : PortAnswer) : (portAnswer a s).tblWidth = s.tblWidth := rfl
@[simp] theorem portAnswer_tblPoly (a : PortAnswer) : (portAnswer a s).tblPoly = s.tblPoly := rfl
@[simp] theorem portAnswer_tblValid (a : PortAnswer) : (portAnswer a s).tblValid = s.tblValid := rfl
@[simp] theorem portAnswer_table (a : PortAnswer) : (portAnswer a s).table = s.table := rfl
@[simp] theorem portAnswer_pkt (a : PortAnswer) : (portAnswer a s).pkt = s.pkt := rfl
@[simp] theorem portAnswer_fbuf (a : PortAnswer) : (portAnswer a s).fbuf = s.fbuf := rfl
@[simp] theorem portAnswer_syncState (a : PortAnswer) : (portAnswer a s).syncState = s.syncState := rfl
@[simp] theorem portAnswer_seq (a : PortAnswer) : (portAnswer a s).seq = s.seq := rfl
@[simp] theorem portAnswer_agenda (a : PortAnswer) : (portAnswer a s).agenda = s.agenda := rfl
@[simp] theorem portAnswer_port (a : PortAnswer) : (portAnswer a s).port = s.port ++ [a] := rfl
@[simp] theorem portAnswer_bus (a : PortAnswer) : (portAnswer a s).bus = s.bus := rfl
@[simp] theorem portAnswer_freeCount (a : PortAnswer) : (portAnswer a s).freeCount = s.freeCount := rfl

end Sys2Proof.Machine
end

