-- ==== Sys2Proof/Laws/Ops.lean ====
section
/-! SUPPORT. For each shared operation, what it can do, once. -/

namespace Sys2Proof.Machine

open Sys2Proof

/-! ### BUSY and command issue -/

theorem busy_eq_false_iff (s : State) : s.busy = false ↔ s.seq = .idle := by
  unfold State.busy
  cases s.seq <;> simp

theorem busy_eq_true_iff (s : State) : s.busy = true ↔ ∃ c, s.seq = .run c := by
  unfold State.busy
  cases s.seq <;> simp

@[simp] theorem busy_answer (b : BusAnswer) (s : State) : (answer b s).busy = s.busy := rfl

@[simp] theorem busy_start (c : Running) (s : State) : (start c s).busy = true := rfl

@[simp] theorem busy_finish (c : ErrCode) (s : State) : (finish c s).busy = false := rfl

/-- A command issued while IDLE is accepted and its rule runs. -/
theorem issue_idle {s : State} (h : s.seq = .idle) (v : Word) (rule : State → State) :
    issue v rule s = rule (accept v (answer .done s)) := by
  simp [issue, (busy_eq_false_iff s).2 h]

/-- A command issued while BUSY only sets OVR. -/
theorem issue_busy {s : State} (h : s.busy = true) (v : Word) (rule : State → State) :
    issue v rule s = refuseWrite (answer .done s) := by
  simp [issue, h]

/-! ### The byte port -/

/-- A read attempt: no answer yet, or the first answer consumed. -/
theorem portRead_cases (s : State) :
    (s.port = [] ∧ portRead s = none) ∨
      ∃ a rest, s.port = a :: rest ∧ portRead s = some (a, { s with port := rest }) := by
  unfold portRead
  cases h : s.port with
  | nil => exact .inl ⟨rfl, rfl⟩
  | cons a rest => exact .inr ⟨a, rest, rfl, rfl⟩

/-- The byte source answers a read attempt that waits, and answers that wait come first. -/
theorem portRead_portAnswer (a : PortAnswer) (s : State) :
    (s.port = [] ∧ portRead (portAnswer a s) = some (a, s)) ∨
      ∃ b rest, s.port = b :: rest ∧
        portRead (portAnswer a s) = some (b, portAnswer a { s with port := rest }) := by
  cases s with
  | mk =>
    rename_i port _ _
    cases port with
    | nil => exact .inl ⟨rfl, rfl⟩
    | cons b rest => exact .inr ⟨b, rest, rfl, rfl⟩

/-! ### FBUF -/

/-- Storing a body byte changes nothing but FBUF. -/
theorem storeFbuf_eq (n : Nat) (b : Byte) (s : State) :
    storeFbuf n b s =
      { s with fbuf := if n < Config.fscore.bodyLen then s.fbuf.write n b else s.fbuf } := by
  unfold storeFbuf
  split <;> rfl

/-- What FBUF reads after a byte is stored. -/
theorem fbufByte_storeFbuf {s : State} (h : s.fbuf.wf) (n : Nat) (b : Byte) (x : Nat) :
    fbufByte (storeFbuf n b s) x = if x = n ∧ n < Config.fscore.bodyLen then b else fbufByte s x := by
  rw [storeFbuf_eq]
  unfold fbufByte
  by_cases hn : n < Config.fscore.bodyLen
  · simp only [hn, if_true, and_true, Memory.read_write h]
    by_cases hx : x = n
    · simp [hx, hn]
    · simp [hx]
  · simp [hn]

theorem storeFbuf_wf {s : State} (h : s.fbuf.wf) (n : Nat) (b : Byte) : (storeFbuf n b s).fbuf.wf := by
  rw [storeFbuf_eq]
  dsimp only
  split
  · exact Memory.write_wf h n b
  · exact h

/-- Storing a body byte keeps FBUF within its 51 bytes. -/
theorem storeFbuf_range {s : State} (h : ∀ c ∈ s.fbuf, c.1 < Config.fscore.bodyLen) (n : Nat) (b : Byte) :
    ∀ c ∈ (storeFbuf n b s).fbuf, c.1 < Config.fscore.bodyLen := by
  rw [storeFbuf_eq]
  dsimp only
  intro c hc
  split at hc
  · rcases Memory.mem_write hc with hc | ⟨rfl, -⟩
    · exact h c hc
    · assumption
  · exact h c hc

/-- Storing an FBUF word changes nothing but FBUF. -/
theorem storeFbufWord_eq (k : Nat) (v : Word) (s : State) :
    storeFbufWord k v s = { s with fbuf := (storeFbufWord k v s).fbuf } := by
  simp only [storeFbufWord, storeFbuf_eq]

/-! ### Host accesses -/

/-- A host read answers data, changes no FSCORE state, and may draw one free value. -/
theorem hostRead_cases (r : Reg) (s : State) :
    (unspecifiedRead r s = false ∧ hostRead r s = { s with bus := .data (regValue r s) }) ∨
      (unspecifiedRead r s = true ∧
        hostRead r s =
          { s with bus := .data (Config.busyRead s.freeCount), freeCount := s.freeCount + 1 }) := by
  unfold hostRead
  cases h : unspecifiedRead r s
  · exact .inl ⟨rfl, rfl⟩
  · exact .inr ⟨rfl, rfl⟩

/-- While IDLE every read is specified. -/
theorem unspecifiedRead_idle {s : State} (h : s.seq = .idle) (r : Reg) : unspecifiedRead r s = false := by
  simp [unspecifiedRead, h]

/-- A STATUS read is always specified. -/
theorem unspecifiedRead_status (s : State) : unspecifiedRead .status s = false := by
  unfold unspecifiedRead
  cases s.seq with
  | idle => rfl
  | run c => cases c <;> rfl

theorem accessRO_read (r : Reg) (s : State) : accessRO r .read s = hostRead r s := rfl

theorem accessRO_write (r : Reg) (v : Word) (s : State) : accessRO r (.write v) s = answer .done s := rfl

theorem accessRW_read (r : Reg) (f : Word → State → State) (s : State) : accessRW r f .read s = hostRead r s := rfl

/-- A write of an RW register while IDLE stores. -/
theorem accessRW_write_idle {s : State} (h : s.seq = .idle) (r : Reg) (f : Word → State → State) (v : Word) :
    accessRW r f (.write v) s = f v (answer .done s) := by
  simp [accessRW, (busy_eq_false_iff s).2 h]

/-- A write of an RW register while BUSY only sets OVR. -/
theorem accessRW_write_busy {s : State} (h : s.busy = true) (r : Reg) (f : Word → State → State) (v : Word) :
    accessRW r f (.write v) s = refuseWrite (answer .done s) := by
  simp [accessRW, h]

/-- An FBUF word that exists is an RW register. -/
theorem accessFbuf_of_lt {k : BitVec 4} (h : k.toNat < 13) (a : Access) (s : State) :
    accessFbuf k a s = accessRW (.fbuf ⟨k.toNat, h⟩) (storeFbufWord k.toNat) a s := by
  simp [accessFbuf, h]

/-- A write to STATUS can only clear OVR. -/
theorem statusWrite_eq (v : Word) (s : State) :
    statusWrite v s = { s with ovr := s.ovr && !v.getLsbD 4 } := by
  unfold statusWrite
  cases h : v.getLsbD 4 <;> simp

/-! ### Reset -/

/-- What the platform's reset leaves: the reset values, and the external agents where they stood. -/
theorem platformReset_eq (takesByte : Bool) (s : State) :
    platformReset takesByte s =
      { State.reset with
        agenda := s.agenda
        port := (platformReset takesByte s).port
        bus := s.bus
        freeCount := s.freeCount } := rfl

/-- The port after reset: as it was, or less the answer in flight. -/
theorem platformReset_port (takesByte : Bool) (s : State) :
    (platformReset takesByte s).port = s.port ∨
      (takesByte = true ∧ s.readsPort = true ∧ (platformReset takesByte s).port = s.port.tail) := by
  unfold platformReset
  cases takesByte <;> cases h : s.readsPort <;> simp

end Sys2Proof.Machine
end

