-- ==== Sys2Proof/Laws/Sequencer.lean ====
section
/-! SUPPORT. What a step of the sequencer can do. -/

namespace Sys2Proof.Machine

open Sys2Proof

/-! ### SyncCore -/

/-- The search goes on with another candidate, or times out. -/
theorem searchOn_cases (r : SyncRun) (s : State) :
    (r.reads < r.budget ∧ searchOn r s = .searching { r with pos := .candidate } s) ∨
      (r.budget ≤ r.reads ∧ searchOn r s = searchTimeout r s) := by
  unfold searchOn
  split
  · exact .inl ⟨by assumption, rfl⟩
  · exact .inr ⟨by omega, rfl⟩

/-- A candidate read: budget spent, no answer yet, the marker, or another answer. -/
theorem searchCandidate_cases (r : SyncRun) (s : State) :
    (r.budget ≤ r.reads ∧ searchCandidate r s = searchTimeout r s) ∨
    (r.reads < r.budget ∧ s.port = [] ∧ searchCandidate r s = .searching r s) ∨
    (r.reads < r.budget ∧ ∃ rest, s.port = .byte Config.fscore.marker :: rest ∧
      searchCandidate r s = .searching { r with reads := r.reads + 1, pos := .header } { s with port := rest }) ∨
    (r.reads < r.budget ∧ ∃ a rest, s.port = a :: rest ∧ a ≠ .byte Config.fscore.marker ∧
      searchCandidate r s = searchOn { r with reads := r.reads + 1 } { s with port := rest }) := by
  unfold searchCandidate
  by_cases hb : r.reads < r.budget
  · rw [if_pos hb]
    rcases portRead_cases s with ⟨hp, hr⟩ | ⟨a, rest, hp, hr⟩
    · exact .inr (.inl ⟨hb, hp, by rw [hr]⟩)
    · by_cases ha : a = .byte Config.fscore.marker
      · exact .inr (.inr (.inl ⟨hb, rest, ha ▸ hp, by rw [hr]; simp [ha]⟩))
      · exact .inr (.inr (.inr ⟨hb, a, rest, hp, ha, by rw [hr]; simp [ha]⟩))
  · rw [if_neg hb]
    exact .inl ⟨by omega, rfl⟩

/-- A header read: no answer yet, a timeout, a valid header, or a failed one. -/
theorem searchHeader_cases (r : SyncRun) (s : State) :
    (s.port = [] ∧ searchHeader r s = .searching r s) ∨
    (∃ rest, s.port = .timeout :: rest ∧
      searchHeader r s = searchOn { r with fails := r.fails + 1 } { s with port := rest }) ∨
    (∃ h rest, s.port = .byte h :: rest ∧ hdrCheck h = true ∧
      searchHeader r s = searchFound r h { s with port := rest }) ∨
    (∃ h rest, s.port = .byte h :: rest ∧ hdrCheck h = false ∧
      searchHeader r s = searchOn { r with fails := r.fails + 1 } { s with port := rest }) := by
  unfold searchHeader
  rcases portRead_cases s with ⟨hp, hr⟩ | ⟨a, rest, hp, hr⟩
  · exact .inl ⟨hp, by rw [hr]⟩
  · cases a with
    | timeout => exact .inr (.inl ⟨rest, hp, by rw [hr]⟩)
    | byte h =>
      cases hc : hdrCheck h
      · exact .inr (.inr (.inr ⟨h, rest, hp, hc, by rw [hr]; simp [hc]⟩))
      · exact .inr (.inr (.inl ⟨h, rest, hp, hc, by rw [hr]; simp [hc]⟩))

/-! ### ReadBody -/

/-- A body read: no answer yet, a timeout, a byte before the last, or the last byte. -/
theorem bodyStep_cases (k : Nat) (s : State) :
    (s.port = [] ∧ bodyStep k s = .reading k s) ∨
    (∃ rest, s.port = .timeout :: rest ∧ bodyStep k s = .ended .frameShort { s with port := rest }) ∨
    (∃ b rest, s.port = .byte b :: rest ∧ k + 1 < Config.fscore.bodyLen ∧
      bodyStep k s = .reading (k + 1) (storeFbuf k b { s with port := rest })) ∨
    (∃ b rest, s.port = .byte b :: rest ∧ Config.fscore.bodyLen ≤ k + 1 ∧
      bodyStep k s = .ended (bodyCode (storeFbuf k b { s with port := rest }))
        (decodeBody (storeFbuf k b { s with port := rest }))) := by
  unfold bodyStep
  rcases portRead_cases s with ⟨hp, hr⟩ | ⟨a, rest, hp, hr⟩
  · exact .inl ⟨hp, by rw [hr]⟩
  · cases a with
    | timeout => exact .inr (.inl ⟨rest, hp, by rw [hr]⟩)
    | byte b =>
      by_cases hk : k + 1 < Config.fscore.bodyLen
      · exact .inr (.inr (.inl ⟨b, rest, hp, hk, by rw [hr]; simp only [if_pos hk]⟩))
      · exact .inr (.inr (.inr ⟨b, rest, hp, by omega, by rw [hr]; simp only [if_neg hk]⟩))

/-! ### DecodeBody -/

/-- A decode writes the two checksums, and on success the packet. -/
theorem decodeBody_cases (s : State) :
    (bodyCode s = .ok ∧ decodeBody s = commit (recordCrcs s)) ∨
      (bodyCode s ≠ .ok ∧ decodeBody s = recordCrcs s) := by
  unfold decodeBody
  split
  · exact .inl ⟨by assumption, rfl⟩
  · exact .inr ⟨by assumption, rfl⟩

/-- The code of a decode says which check failed. -/
theorem bodyCode_cases (s : State) :
    (calcCrc s ≠ receivedCrc s ∧ bodyCode s = .checksumMismatch) ∨
    (calcCrc s = receivedCrc s ∧ knownReport (fbufByte s 37) = true ∧ bodyCode s = .ok) ∨
    (calcCrc s = receivedCrc s ∧ knownReport (fbufByte s 37) = false ∧ bodyCode s = .unknownReportId) := by
  unfold bodyCode
  by_cases hc : calcCrc s = receivedCrc s
  · cases hk : knownReport (fbufByte s 37) <;> simp [hc]
  · simp [hc]

/-! ### TBL_BUILD and CRC_CHECK -/

/-- An entry of TBL_BUILD: one before the last, or the last. -/
theorem tblBuildStep_cases (W : BitVec 6) (P : Word) (i : Nat) (s : State) :
    (i + 1 < Config.fscore.tblEntries ∧
      tblBuildStep W P i s =
        start (.tblBuild W P (i + 1)) (storeTable i (tableValue W.toNat P.toNat i) s)) ∨
    (Config.fscore.tblEntries ≤ i + 1 ∧
      tblBuildStep W P i s =
        finish .ok
          { storeTable i (tableValue W.toNat P.toNat i) s with tblWidth := W, tblPoly := P, tblValid := true }) := by
  unfold tblBuildStep
  by_cases h : i + 1 < Config.fscore.tblEntries
  · exact .inl ⟨h, by simp only [if_pos h]⟩
  · exact .inr ⟨by omega, by simp only [if_neg h]⟩

/-- The working value after one sequencer step of CRC_CHECK. -/
def dividedOnce (n P w : Nat) : Nat :=
  if 2 ^ n ≤ w then ldStep (divisor n P Config.fscore.hdrCheckVariant) w else w

/-- A step of CRC_CHECK: the division goes on, or its remainder is recorded. -/
theorem crcCheckStep_cases (W : BitVec 6) (P : Word) (w : Nat) (s : State) :
    (2 ^ W.toNat ≤ dividedOnce W.toNat P.toNat w ∧
      crcCheckStep W P w s = start (.crcCheck W P (dividedOnce W.toNat P.toNat w)) s) ∨
    (dividedOnce W.toNat P.toNat w < 2 ^ W.toNat ∧
      crcCheckStep W P w s =
        finish (if dividedOnce W.toNat P.toNat w = 0 then .ok else .checksumMismatch)
          { s with
            chkRem := BitVec.ofNat 32 (dividedOnce W.toNat P.toNat w)
            chkPass := dividedOnce W.toNat P.toNat w == 0 }) := by
  unfold crcCheckStep
  by_cases h : 2 ^ W.toNat ≤ dividedOnce W.toNat P.toNat w
  · exact .inl ⟨h, if_pos h⟩
  · exact .inr ⟨by omega, if_neg h⟩

/-! ### The sequencer -/

theorem sequencerStep_idle {s : State} (h : s.seq = .idle) : sequencerStep s = s := by
  simp [sequencerStep, h]

@[simp] theorem runSequencer_zero (s : State) : runSequencer 0 s = s := rfl

theorem runSequencer_succ (n : Nat) (s : State) : runSequencer (n + 1) s = runSequencer n (sequencerStep s) := rfl

theorem runSequencer_add (m n : Nat) (s : State) :
    runSequencer (m + n) s = runSequencer n (runSequencer m s) := by
  induction m generalizing s with
  | zero => simp
  | succ m ih => rw [Nat.add_right_comm, runSequencer_succ, ih, runSequencer_succ]

/-! ### The table as TBL_BUILD fills it -/

theorem fillTable_wf (W P : Nat) (n : Nat) {m : Memory} (h : m.wf) : (fillTable W P n m).wf := by
  induction n with
  | zero => exact h
  | succ n ih => exact Memory.writeWord_wf ih _ _

/-- Entry b of a filled table is the one TBL_BUILD stores for b (40_crc_engine R185). -/
theorem fillTable_readWord (W P : Nat) (n : Nat) {m : Memory} (h : m.wf) (b : Nat) :
    (fillTable W P n m).readWord b = if b < n then tableValue W P b else m.readWord b := by
  induction n with
  | zero => simp [fillTable]
  | succ n ih =>
    rw [fillTable, Memory.readWord_writeWord (fillTable_wf W P n h), ih]
    split
    · next e => simp [e]
    · next e => simp [show b < n + 1 ↔ b < n by omega]

/-- A word write adds no index beyond its own four. -/
theorem writeWord_range {m : Memory} {k : Nat} (h : ∀ c ∈ m, c.1 < k) {i : Nat} (hi : 4 * i + 3 < k) (w : Word) :
    ∀ c ∈ m.writeWord i w, c.1 < k := by
  have step : ∀ {m : Memory} (_ : ∀ c ∈ m, c.1 < k) {a : Nat} (_ : a < k) (b : Byte), ∀ c ∈ m.write a b, c.1 < k := by
    intro m hm a ha b c hc
    rcases Memory.mem_write hc with hc | ⟨rfl, -⟩
    · exact hm c hc
    · exact ha
  exact step (step (step (step h (by omega) _) (by omega) _) (by omega) _) hi _

/-- A filled table has no byte beyond its entries. -/
theorem fillTable_range (W P : Nat) {m : Memory} {k : Nat} (h : ∀ c ∈ m, c.1 < 4 * k) {n : Nat} (hn : n ≤ k) :
    ∀ c ∈ fillTable W P n m, c.1 < 4 * k := by
  induction n with
  | zero => exact h
  | succ n ih => exact writeWord_range (ih (by omega)) (by omega) _

end Sys2Proof.Machine
end

