-- ==== Sys2Proof/Laws/Step.lean ====
section
/-! SUPPORT. What a step of the machine can do, by the first event of the agenda. -/

namespace Sys2Proof.Machine

open Sys2Proof

theorem step_empty {s : State} (h : s.agenda = []) : step s = .next (sequencerStep s) := by
  simp [step, turn, h]

theorem step_host_ok {s : State} {c : Code} {rest : List Event} {i : Instr} (h : s.agenda = .host c :: rest)
    (hc : decode c = .ok i) : step s = exec i (withAgenda rest s) := by
  simp [step, turn, hostTurn, h, hc]

theorem step_host_error {s : State} {c : Code} {rest : List Event} {e : DecodeError}
    (h : s.agenda = .host c :: rest) (hc : decode c = .error e) :
    step s = .next (answer .error (withAgenda rest s)) := by
  simp [step, turn, hostTurn, h, hc]

theorem step_poll {s : State} {rest : List Event} (h : s.agenda = .poll :: rest) :
    step s = .next (hostRead .status (withAgenda (pollAgenda s.busy rest) s)) := by
  simp [step, turn, h, exec, execMmioStatus, accessStatus]

theorem step_sequencer {s : State} {rest : List Event} (h : s.agenda = .sequencer :: rest) :
    step s = .next (sequencerStep (withAgenda rest s)) := by
  simp [step, turn, h]

theorem step_byteSource {s : State} {a : PortAnswer} {rest : List Event} (h : s.agenda = .byteSource a :: rest) :
    step s = .next (portAnswer a (withAgenda rest s)) := by
  simp [step, turn, h]

/-- What a poll that finds BUSY leaves on the agenda. -/
theorem pollAgenda_busy (rest : List Event) :
    (pollAgenda true rest = .sequencer :: .poll :: rest ∧ ∀ e ∈ rest.head?, e.ofHost = true) ∨
      ∃ e l, rest = e :: l ∧ e.ofHost = false ∧ pollAgenda true rest = e :: .poll :: l := by
  cases rest with
  | nil => exact .inl ⟨rfl, by simp⟩
  | cons e l => cases h : e.ofHost <;> simp [pollAgenda, h]

theorem pollAgenda_idle (rest : List Event) : pollAgenda false rest = rest := rfl

theorem step_reset {s : State} {b : Bool} {rest : List Event} (h : s.agenda = .reset b :: rest) :
    step s = .next (platformReset b (withAgenda rest s)) := by
  simp [step, turn, h]

/-- A CMD write executes the command its word decodes to (30_encoding R145). -/
theorem issueWord_eq (w : Word) (s : State) : issueWord w s = exec (decodeCommand w).toInstr s := by
  unfold issueWord
  cases decodeCommand w <;> rfl

/-- No instruction stops the machine. -/
theorem exec_next (i : Instr) (s : State) : ∃ t, exec i s = .next t := by
  cases i with
  | mmioCmd a =>
    cases a with
    | read => exact ⟨_, rfl⟩
    | write w =>
      show ∃ t, issueWord w s = .next t
      unfold issueWord
      cases decodeCommand w <;> exact ⟨_, rfl⟩
  | _ => exact ⟨_, rfl⟩

/-- Every state has a next state, and the first event says which. -/
theorem step_cases {s t : State} (h : step s = .next t) :
    (s.agenda = [] ∧ t = sequencerStep s) ∨
    (∃ c rest i, s.agenda = .host c :: rest ∧ decode c = .ok i ∧ exec i (withAgenda rest s) = .next t) ∨
    (∃ c rest e, s.agenda = .host c :: rest ∧ decode c = .error e ∧ t = answer .error (withAgenda rest s)) ∨
    (∃ rest, s.agenda = .poll :: rest ∧ t = hostRead .status (withAgenda (pollAgenda s.busy rest) s)) ∨
    (∃ rest, s.agenda = .sequencer :: rest ∧ t = sequencerStep (withAgenda rest s)) ∨
    (∃ a rest, s.agenda = .byteSource a :: rest ∧ t = portAnswer a (withAgenda rest s)) ∨
    (∃ b rest, s.agenda = .reset b :: rest ∧ t = platformReset b (withAgenda rest s)) := by
  cases ha : s.agenda with
  | nil =>
    rw [step_empty ha] at h
    exact .inl ⟨rfl, by injection h with h; exact h.symm⟩
  | cons e rest =>
    right
    cases e with
    | host c =>
      cases hd : decode c with
      | ok i =>
        rw [step_host_ok ha hd] at h
        exact .inl ⟨c, rest, i, rfl, hd, h⟩
      | error x =>
        rw [step_host_error ha hd] at h
        exact .inr (.inl ⟨c, rest, x, rfl, hd, by injection h with h; exact h.symm⟩)
    | poll =>
      rw [step_poll ha] at h
      exact .inr (.inr (.inl ⟨rest, rfl, by injection h with h; exact h.symm⟩))
    | sequencer =>
      rw [step_sequencer ha] at h
      exact .inr (.inr (.inr (.inl ⟨rest, rfl, by injection h with h; exact h.symm⟩)))
    | byteSource a =>
      rw [step_byteSource ha] at h
      exact .inr (.inr (.inr (.inr (.inl ⟨a, rest, rfl, by injection h with h; exact h.symm⟩))))
    | reset b =>
      rw [step_reset ha] at h
      exact .inr (.inr (.inr (.inr (.inr ⟨b, rest, rfl, by injection h with h; exact h.symm⟩))))

end Sys2Proof.Machine
end

