-- ==== Sys2Proof/Tests/Slice0.lean ====
section
/-! SUPPORT. Tests: ill-formed terms are refused, words written out from the spec decode, one-step tests with the values
of spec/95_test_vectors.md, and a witness for the hypotheses of every obligation. -/

namespace Sys2Proof.Tests

open Sys2Proof Sys2Proof.Machine

set_option Elab.async false

/-! ### Helpers -/

/-- The state an outcome leads to. -/
def after : Host.Outcome State Fault Refusal → State
  | .next t => t
  | .fault _ => State.reset
  | .refused _ => State.reset

/-- An IDLE engine with a latched configuration, which CRC_CFG and CRC_POLY hold too. -/
def engine (W : BitVec 6) (P r : Word) : State :=
  { State.reset with curWidth := W, curPoly := P, crcReg := r, crcWidth := W, crcPoly := P }

/-- The reset state with the byte source's answers. -/
def withPort (l : List PortAnswer) : State := { State.reset with port := l }

/-- Frame A of 95_test_vectors section 5.1. -/
def frameA : List Byte :=
  List.replicate 37 0x00 ++ [0x02, 0x07, 0x02, 0x64, 0x01, 0x00, 0x02, 0x00, 0x03, 0x00, 0xF6, 0x44, 0xCB, 0xD5]

/-- Frame B of 95_test_vectors section 5.1. -/
def frameB : List Byte :=
  [0x01, 0x00, 0x00, 0xFF, 0xFF, 0xFF, 0xFF, 0xFF, 0x7F, 0x00, 0x00, 0x80, 0x56, 0x34, 0x12, 0xFE, 0xFF, 0xFF] ++
  [0x10, 0x00, 0x00, 0x20, 0x00, 0x00, 0xD0, 0xFF, 0xFF, 0x00, 0x00, 0x00, 0x00, 0x00, 0x40, 0xFF, 0xFF, 0xBF] ++
  [0x00, 0x05, 0xFE, 0xFF, 0xFF, 0xFF, 0xFF, 0x00, 0x80, 0xFF, 0x7F, 0x67, 0x39, 0xAC, 0x0B]

/-- A body as FBUF. -/
def bufOf (B : List Byte) : Memory := B.zipIdx.foldl (fun m p => m.write p.2 p.1) []

/-- The reset state with a body in FBUF. -/
def withBody (B : List Byte) : State := { State.reset with fbuf := bufOf B }

/-- A running CRC_CHECK, accepted at (4, 9) with payload 0xAA5 and checksum 9. -/
def checking : State :=
  after (exec .crcCheck { engine 4 0x9 0 with chkPayload := 0xAA5, chkSum := 0x9 })

/-- The table of (8, 0x07), as TBL_BUILD leaves it. -/
@[irreducible] def crc8Table : Memory := fillTable 8 0x07 256 []

/-- An IDLE engine in a message of (8, 0x07) with that table. -/
def tabled : State :=
  { engine 8 0x07 0x97 with table := crc8Table, tblValid := true, tblWidth := 8, tblPoly := 0x07 }

/-! ### WellFormed -/

theorem test_wellFormed_fbuf :
    (Instr.mmioFbuf 12 .read).wellFormed = true ∧ (Instr.mmioFbuf 13 .read).wellFormed = false := by
  decide

theorem test_wellFormed_reserved :
    (Instr.mmioReserved 0x044 .read).wellFormed = true ∧ (Instr.mmioReserved 0x000 .read).wellFormed = false ∧
    (Instr.mmioReserved 0x045 .read).wellFormed = false := by
  decide

theorem test_wellFormed_illegal :
    (Instr.illegalCmd 0x0A).wellFormed = true ∧ (Instr.illegalCmd 0x00000000).wellFormed = false ∧
    (Instr.illegalCmd 0x0000FF02).wellFormed = false := by
  decide

/-! ### Decoding -/

/-- 30_encoding R143, R154: each command's word, OPC in [7:0] and the byte in [15:8]. -/
theorem test_decode_commands :
    [0b00000000, 0b00000001, 0x3102, 0xFF03, 0b00000100, 0b00000101, 0b00000110, 0b00000111, 0b00001000,
      0b00001001].map (decodeTableWord 32) =
    [some .nop, some .crcInit, some (.crcUpdBit 0x31), some (.crcUpdTbl 0xFF), some .tblBuild, some .crcCheck,
      some .sync, some .decode, some .frame, some .decodeBuf] := by
  decide

/-- 95_test_vectors section 7: the illegal words. -/
theorem test_decode_illegal :
    [0xA, 0xFF, 0x104, 0x10002, 0x80000000].map (decodeTableWord 32) =
    [some (.illegalCmd 0xA), some (.illegalCmd 0xFF), some (.illegalCmd 0x104), some (.illegalCmd 0x10002),
      some (.illegalCmd 0x80000000)] := by
  decide

/-- 10_state R33: offsets of the command, engine and check registers. -/
theorem test_decode_engine_registers :
    [0x000, 0x004, 0x008, 0x00C, 0x010, 0x014, 0x018, 0x01C, 0x020, 0x024].map (decodeTableWord 16) =
    [some (.mmioCmd .read), some (.mmioStatus .read), some (.mmioCrcCfg .read), some (.mmioCrcPoly .read),
      some (.mmioCrcResult .read), some (.mmioCrcCur .read), some (.mmioCrcCurPoly .read),
      some (.mmioChkPayload .read), some (.mmioChkSum .read), some (.mmioChkRem .read)] := by
  decide

/-- 10_state R33: offsets of the synchronizer, checksum and table-tag registers. -/
theorem test_decode_sync_registers :
    [0x028, 0x02C, 0x030, 0x034, 0x038, 0x03C, 0x040].map (decodeTableWord 16) =
    [some (.mmioSyncCfg .read), some (.mmioSensorNum .read), some (.mmioHdrInfo .read), some (.mmioCrcRx .read),
      some (.mmioCrcCalc .read), some (.mmioTblInfo .read), some (.mmioTblPoly .read)] := by
  decide

/-- 10_state R33: offsets of the packet registers. -/
theorem test_decode_packet_registers :
    [0x060, 0x064, 0x068, 0x06C, 0x070, 0x074, 0x078, 0x07C, 0x080, 0x084, 0x088, 0x08C, 0x090, 0x094, 0x098,
      0x09C].map (decodeTableWord 16) =
    [some (.mmioPktDiff0 .read), some (.mmioPktDiff1 .read), some (.mmioPktDiff2 .read), some (.mmioPktDiff3 .read),
      some (.mmioPktDiff4 .read), some (.mmioPktDiff5 .read), some (.mmioPktSum0 .read), some (.mmioPktSum1 .read),
      some (.mmioPktSum2 .read), some (.mmioPktSum3 .read), some (.mmioPktSum4 .read), some (.mmioPktSum5 .read),
      some (.mmioPktInfo .read), some (.mmioPktDelay .read), some (.mmioPktImuXy .read),
      some (.mmioPktImuZ .read)] := by
  decide

/-- 10_state R33, 20_memory R103: the register files and the reserved offsets, at their ends. -/
theorem test_decode_files :
    [0x100, 0x130, 0x134, 0x3FC, 0x400, 0x7FC, 0x800, 0xFFC, 0x044, 0x05C, 0x0A0, 0x0FC].map (decodeTableWord 16) =
    [some (.mmioFbuf 0 .read), some (.mmioFbuf 12 .read), some (.mmioReserved 0x134 .read),
      some (.mmioReserved 0x3FC .read), some (.mmioTable 0 .read), some (.mmioTable 255 .read),
      some (.mmioReserved 0x800 .read), some (.mmioReserved 0xFFC .read), some (.mmioReserved 0x044 .read),
      some (.mmioReserved 0x05C .read), some (.mmioReserved 0x0A0 .read), some (.mmioReserved 0x0FC .read)] := by
  decide

/-- A write carries its data word; a misaligned offset is refused (20_memory R101). -/
theorem test_decode_write :
    decode (mmioCode 0x028 (.write 0x64)) = .ok (.mmioSyncCfg (.write 0x64)) ∧
    decode (mmioCode 0x029 .read) = .error .misaligned ∧
    decode (.mmio { offset := 0x028, size := .bits8, access := .read }) = .error .wrongSize ∧
    decodeTableWord 16 0x102 = none := by
  decide

/-! ### Commands, with the values of 95_test_vectors -/

/-- Section 2.6. -/
theorem test_crcInit_legality :
    (after (exec .crcInit { engine 4 0x0F 0x55 with curWidth := 32 })).crcReg = 0 ∧
    (after (exec .crcInit { engine 4 0x10 0x55 with curWidth := 32 })).err = .configError ∧
    (after (exec .crcInit { engine 4 0x10 0x55 with curWidth := 32 })).curWidth = 32 := by
  decide

/-- Section 2.3: 01 at (8, 07); section 2.2: 31 at (4, 9). -/
theorem test_crcUpdBit :
    (after (exec (.crcUpdBit 0x01) (engine 8 0x07 0))).crcReg = 0x07 ∧
    regValue .crcResult (after (exec (.crcUpdBit 0x31) (engine 4 0x9 0))) = 0x2 := by
  decide +kernel

/-- Section 2.2 at W = 32: the byte 32 after 31. -/
theorem test_crcUpdBit_wide :
    (after (exec (.crcUpdBit 0x32) (engine 32 0x04C11DB7 0xD0F37027))).crcReg = 0x3F5B3A17 := by decide +kernel

/-- Section 2.2: the byte 32 after 31 at (8, 07), by the table, of which it reads entry 0x97 XOR 0x32 (section 2.4). -/
theorem test_crcUpdTbl :
    (after (exec (.crcUpdTbl 0x32)
      { engine 8 0x07 0x97 with
        table := Memory.writeWord [] 0xA5 0x72, tblValid := true, tblWidth := 8, tblPoly := 0x07 })).crcReg = 0x72 := by
  decide +kernel

/-- Section 2.5: CONFIG_ERROR before the tag, and TABLE_INVALID with the register kept. -/
theorem test_crcUpdTbl_refused :
    (after (exec (.crcUpdTbl 0x31) (engine 4 0x9 0x20))).err = .configError ∧
    (after (exec (.crcUpdTbl 0x31) (engine 8 0x07 0x20))).err = .tableInvalid ∧
    (after (exec (.crcUpdTbl 0x31) (engine 8 0x07 0x20))).crcReg = 0x20 := by
  decide

/-- Section 2.4, TABLE[FF] at (32, 04C11DB7): the last step of TBL_BUILD. -/
theorem test_tblBuild_last :
    let t := sequencerStep { State.reset with seq := .run (.tblBuild 32 0x04C11DB7 255) }
    tableEntry t 255 = 0xB1F740B4 ∧ regValue .tblInfo t = 0x80000020 ∧ t.busy = false := by
  decide +kernel

/-- Section 3: AA5 with 9 at (4, 9) passes in four steps. -/
theorem test_crcCheck_pass :
    (runSequencer 3 checking).busy = true ∧ (runSequencer 4 checking).chkPass = true ∧
    (runSequencer 4 checking).chkRem = 0 := by
  decide +kernel

/-- Section 3: 31 with 00 at (8, 07) leaves 97. -/
theorem test_crcCheck_fail :
    let t := runSequencer 3 (after (exec .crcCheck { engine 8 0x07 0 with chkPayload := 0x31 }))
    t.chkRem = 0x97 ∧ t.err = .checksumMismatch ∧ t.chkPass = false := by
  decide +kernel

/-- Section 6, first row: the stream 00 AA 50 AA 59. -/
theorem test_sync :
    let t := runSequencer 5 (after (exec .sync (withPort
      [.byte 0x00, .byte 0xAA, .byte 0x50, .byte 0xAA, .byte 0x59, .byte 0x11])))
    regValue .hdrInfo t = 0x00030159 ∧ statusWord t = 0x00000006 ∧ t.port = [.byte 0x11] := by
  decide +kernel

/-- Section 6, fourth row: SCAN_MAX 4, the stream 00 AA AA 59 11 22. -/
theorem test_sync_timeout :
    let t := runSequencer 5 (after (exec .sync { withPort
      [.byte 0x00, .byte 0xAA, .byte 0xAA, .byte 0x59, .byte 0x11, .byte 0x22] with scanMax := 4 }))
    regValue .hdrInfo t = 0x00040100 ∧ statusWord t = 0x00000102 ∧ t.port = [.byte 0x22] := by
  decide +kernel

/-- Section 5.2: frame A. -/
theorem test_decodeBuf_frameA :
    let t := sequencerStep (after (exec .decodeBuf (withBody frameA)))
    statusWord t = 0x0000000A ∧ regValue .pktInfo t = 0x00020702 ∧ regValue .pktDelay t = 0x64 ∧
    regValue .pktImuXy t = 0x00020001 ∧ regValue .pktImuZ t = 0x3 ∧ t.crcRx = 0xD5CB44F6 := by
  decide +kernel

/-- Section 5.2: frame B. -/
theorem test_decodeBuf_frameB :
    let t := sequencerStep (after (exec .decodeBuf { withBody frameB with sensorNum := 0x2A }))
    (List.finRange 6).map (fun j => regValue (.pktDiff j) t) =
      [0x00000001, 0xFFFFFFFF, 0x007FFFFF, 0xFF800000, 0x00123456, 0xFFFFFFFE] ∧
    (List.finRange 6).map (fun j => regValue (.pktSum j) t) =
      [0x00000010, 0x00000020, 0xFFFFFFD0, 0x00000000, 0x00400000, 0xFFBFFFFF] ∧
    regValue .pktInfo t = 0x2A03FE05 ∧ regValue .pktDelay t = 0x3FFF := by
  decide +kernel

/-- Section 5.3: a body of two bytes and a timeout. -/
theorem test_decode_short :
    let t := runSequencer 3 (after (exec .decode (withPort [.byte 0x01, .byte 0x02, .timeout])))
    t.err = .frameShort ∧ regValue (.fbuf 0) t = 0x0201 ∧ t.busy = false := by
  decide +kernel

/-- Section 5.3: FRAME ends SEARCHING, with the header recorded. -/
theorem test_frame_short :
    let t := runSequencer 4 (after (exec .frame (withPort [.byte 0xAA, .byte 0x59, .byte 0x01, .timeout])))
    statusWord t = 0x00000402 ∧ regValue .hdrInfo t = 0x00010059 := by
  decide +kernel

/-- Section 7: an illegal word. -/
theorem test_illegalCmd :
    let t := after (exec (.illegalCmd 0x104) State.reset)
    t.cmd = 0x104 ∧ statusWord t = 0x00000702 := by
  decide

/-- 40_crc_engine R177. -/
theorem test_nop : statusWord (after (exec .nop State.reset)) = 0x00000002 := by decide

/-! ### Register accesses -/

/-- 10_state R71, R41: a write while BUSY is dropped; OVR is cleared by writing 1 to its bit. -/
theorem test_overrun :
    let t := after (exec (.mmioCrcCfg (.write 8)) checking)
    t.crcWidth = 4 ∧ t.ovr = true ∧ (after (exec (.mmioStatus (.write 0x10)) t)).ovr = false ∧
    (after (exec (.mmioStatus (.write 0xEF)) t)).ovr = true := by
  decide +kernel

/-- 10_state R45: CRC_CFG has 6 bits. -/
theorem test_crcCfg_write : (after (exec (.mmioCrcCfg (.write 0xFFFFFFC8)) State.reset)).crcWidth = 8 := by decide

/-- 20_memory R106: the top byte of FBUF word 12 does not exist. -/
theorem test_fbuf_last :
    (after (exec (.mmioFbuf 12 .read) (after (exec (.mmioFbuf 12 (.write 0x44332211)) State.reset)))).bus =
      .data 0x00332211 := by
  decide

/-- 20_memory R107: a TABLE read before any TBL_BUILD. -/
theorem test_table_invalid :
    (after (exec (.mmioTable 1 .read) { State.reset with table := [(4, 0x07)] })).bus = .data 0 ∧
    (after (exec (.mmioTable 1 .read) { State.reset with table := [(4, 0x07)], tblValid := true })).bus = .data 7 := by
  decide

/-- 20_memory R102: a bus error changes no register. -/
theorem test_bus_error :
    after (step { State.reset with agenda := [.host (.mmio { offset := 0x008, size := .bits16, access := .write 4 })] }) =
      { State.reset with bus := .error } := by
  decide

/-- 20_memory R111, R112: a DECODE that waits takes the byte the byte source delivers. -/
theorem test_byteSource :
    let s := { State.reset with seq := .run (.decode 0), agenda := [.poll, .byteSource (.byte 0x31), .sequencer] }
    let t := after (step (after (step (after (step s)))))
    t.port = [.byte 0x31] ∧ t.agenda = [.sequencer, .poll] ∧
    (after (step (after (step t)))).fbuf = [(0, 0x31)] := by
  decide

/-- 30_encoding R153: a poll that reads BUSY = 0 ends. -/
theorem test_poll_ends :
    (after (step { State.reset with agenda := [.poll, .host (.cmdw 0)] })).agenda = [.host (.cmdw 0)] := by
  decide

/-! ### Witnesses of the obligations' hypotheses -/

theorem witness_StepRunsDecodedInstruction :
    ({ State.reset with agenda := [.host (.cmdw 0x00003102), .poll] } : State).agenda =
      .host (.cmdw 0x00003102) :: [.poll] ∧ decode (.cmdw 0x00003102) = .ok (.crcUpdBit 0x31) := by
  decide

theorem witness_BusErrorChangesNothing :
    AccessSize.bits64 ≠ .bits32 ∧ (0x001 : Offset).toNat % 4 ≠ 0 ∧ (0xFFF : Offset).toNat % 4 ≠ 0 := by
  decide

theorem witness_IdleChangesNothing : State.reset.agenda = [] ∧ State.reset.seq = .idle := by decide

theorem witness_DecodeOfEncode :
    (Instr.mmioFbuf 12 (.write 0xFFFFFFFF)).wellFormed = true ∧ (Instr.mmioReserved 0xFFC .read).wellFormed = true ∧
    (Instr.illegalCmd 0xFFFFFFFF).wellFormed = true ∧ (Instr.crcUpdTbl 0xFF).wellFormed = true := by
  decide

theorem witness_EncodeOfDecode :
    decode (.cmdw 0x0000000A) = .ok (.illegalCmd 0x0000000A) ∧
    decode (mmioCode 0x134 .read) = .ok (.mmioReserved 0x134 .read) := by
  decide

theorem witness_WindowAddressing : Config.base + 4096 < Config.base ∨ Config.base + 4096 ≤ Config.base + 4096 :=
  .inr (Nat.le_refl _)

theorem witness_WritesWhileBusy :
    checking.busy = true ∧ Reg.readOnly .cmd = false ∧ Reg.cmd ≠ .status ∧ Reg.readOnly (.fbuf 12) = false ∧
    Reg.readOnly (.table 255) = true ∧ reservedOffset 0x044 = true ∧ reservedOffset 0xFFC = true := by
  decide +kernel

theorem witness_NopCompletes : State.reset.seq = .idle := rfl

theorem witness_IllegalWordFinishes :
    State.reset.seq = .idle ∧ illegalWord 0x0000000A = true ∧ illegalWord 0x00000104 = true ∧
    illegalWord 0x00010002 = true := by
  decide

theorem witness_CrcInitLatchesOrRefuses_legal :
    (engine 4 0xF 0).seq = .idle ∧ ((engine 4 0xF 0).crcWidth = 4 ∧ (engine 4 0xF 0).crcPoly.toNat < 2 ^ 4) ∧
    (8 ≤ (engine 32 0xFFFFFFFF 0).crcWidth.toNat ∧ (engine 32 0xFFFFFFFF 0).crcPoly.toNat < 2 ^ 32) := by
  decide

theorem witness_CrcInitLatchesOrRefuses_illegal :
    ¬ (((engine 7 0x7 0).crcWidth = 4 ∨ (8 ≤ (engine 7 0x7 0).crcWidth.toNat ∧ (engine 7 0x7 0).crcWidth.toNat ≤ 32)) ∧
      (engine 7 0x7 0).crcPoly.toNat < 2 ^ (engine 7 0x7 0).crcWidth.toNat) ∧
    ¬ (engine 8 0x100 0).crcPoly.toNat < 2 ^ (engine 8 0x100 0).crcWidth.toNat := by
  decide

theorem engineInv_narrow : EngineInv (engine 4 0x9 0x60) where
  legal := by decide
  wide := by decide
  narrow := by decide

theorem engineInv_wide : EngineInv (engine 8 0x07 0x97) where
  legal := by decide
  wide := by decide
  narrow := by decide

theorem witness_CrcUpdBitFeedsByte :
    (engine 4 0x9 0x60).seq = .idle ∧ EngineInv (engine 4 0x9 0x60) ∧ (engine 8 0x07 0x97).seq = .idle ∧
    EngineInv (engine 8 0x07 0x97) :=
  ⟨rfl, engineInv_narrow, rfl, engineInv_wide⟩

theorem engineInv_tabled : EngineInv tabled := ⟨by decide, by decide, by decide⟩

theorem witness_CrcUpdTblFeedsByteOrRefuses_width4 :
    (engine 4 0x9 0x60).seq = .idle ∧ EngineInv (engine 4 0x9 0x60) ∧ (engine 4 0x9 0x60).curWidth = 4 :=
  ⟨rfl, engineInv_narrow, rfl⟩

theorem witness_CrcUpdTblFeedsByteOrRefuses_tag :
    EngineInv (engine 8 0x07 0x97) ∧ (engine 8 0x07 0x97).curWidth ≠ 4 ∧ ¬ (engine 8 0x07 0x97).tblValid = true :=
  ⟨engineInv_wide, by decide, by decide⟩

theorem witness_CrcUpdTblFeedsByteOrRefuses_ok :
    tabled.seq = .idle ∧ EngineInv tabled ∧ tabled.curWidth ≠ 4 ∧
    (tabled.tblValid = true ∧ tabled.tblWidth = tabled.curWidth ∧ tabled.tblPoly = tabled.curPoly) :=
  ⟨rfl, engineInv_tabled, by decide, rfl, rfl, rfl⟩

theorem witness_CrcResultOfMessage :
    State.reset.seq = .idle ∧ cfgLegal State.reset.crcWidth.toNat State.reset.crcPoly.toNat = true := by
  decide

theorem witness_NarrowRegisterLowNibble : 0xF0 < 256 ∧ 0xF0 % 16 = 0 ∧ 0xF < 16 := by decide

theorem witness_TblBuildBuildsTheTable :
    (engine 4 0x9 0).seq = .idle ∧ (engine 4 0x9 0).table.wf ∧
    cfgLegal (engine 4 0x9 0).crcWidth.toNat (engine 4 0x9 0).crcPoly.toNat = true ∧
    cfgLegal (engine 33 0x0 0).crcWidth.toNat (engine 33 0x0 0).crcPoly.toNat = false := by
  decide

theorem witness_TableModeEqualsBitwise_step :
    8 ≤ 8 ∧ 8 ≤ 32 ∧ 0x07 < 2 ^ 8 ∧ 0xFF < 2 ^ 8 ∧
    ∀ i : Byte, (fun n : Nat => crcBits [BitVec.ofNat 8 n] 8 0x07) i.toNat = crcBits [i] 8 0x07 :=
  ⟨by decide, by decide, by decide, by decide, fun i => by simp⟩

theorem crc8Table_range : ∀ c ∈ crc8Table, c.1 < 4 * 256 := by
  unfold crc8Table
  exact fillTable_range 8 0x07 (by simp) (Nat.le_refl 256)

theorem crc8Table_readWord (b : Nat) (h : b < 256) : crc8Table.readWord b = tableValue 8 0x07 b := by
  unfold crc8Table
  rw [fillTable_readWord 8 0x07 256 (by simp [Memory.wf]), if_pos h]

theorem tableInv_tabled : TableInv tabled where
  range := crc8Table_range
  valid := fun _ => ⟨by decide, crc8Table_readWord⟩
  building := fun _ _ _ h => nomatch h

theorem witness_TableModeEqualsBitwise_message :
    tabled.seq = .idle ∧ EngineInv tabled ∧ TableInv tabled ∧ tabled.curWidth ≠ 4 ∧
    (tabled.tblValid = true ∧ tabled.tblWidth = tabled.curWidth ∧ tabled.tblPoly = tabled.curPoly) :=
  ⟨rfl, engineInv_tabled, tableInv_tabled, by decide, rfl, rfl, rfl⟩

theorem witness_LongDivisionAgreesWithCrc :
    cfgLegal 4 0x9 = true ∧ 15 < 2 ^ 4 ∧ cfgLegal 32 0xFFFFFFFF = true ∧ 0xFFFFFFFF < 2 ^ 32 := by
  decide

theorem witness_CrcCheckRunsTheDivision :
    (engine 4 0x9 0).seq = .idle ∧ cfgLegal (engine 4 0x9 0).crcWidth.toNat (engine 4 0x9 0).crcPoly.toNat = true ∧
    ({ engine 4 0x9 0 with chkSum := 0xF } : State).chkSum.toNat < 2 ^ (engine 4 0x9 0).crcWidth.toNat ∧
    2 ^ (engine 4 0x9 0).crcWidth.toNat ≤ ({ engine 4 0x9 0 with chkSum := 0x10 } : State).chkSum.toNat ∧
    cfgLegal (engine 0 0x0 0).crcWidth.toNat (engine 0 0x0 0).crcPoly.toNat = false := by
  decide

theorem witness_SyncRunsSyncCore :
    (withPort [.byte 0xAA, .byte 0x59]).seq = .idle ∧
    (wholeSync (after (exec .sync (withPort [.byte 0xAA, .byte 0x59])))).isSome = true ∧
    (wholeSync (after (exec .sync { withPort [] with scanMax := 0 }))).isSome = true := by
  decide +kernel

theorem witness_ZeroBudgetTimesOut :
    ({ State.reset with scanMax := 0 } : State).seq = .idle ∧ ({ State.reset with scanMax := 0 } : State).scanMax = 0 := by
  decide

theorem witness_NoMarkerTimesOut :
    ({ withPort [.byte 0x00, .timeout, .byte 0xAA] with scanMax := 2 } : State).seq = .idle ∧
    0 < ({ withPort [.byte 0x00, .timeout, .byte 0xAA] with scanMax := 2 } : State).scanMax.toNat ∧
    (withPort [.byte 0x00, .timeout, .byte 0xAA]).port = [.byte 0x00, .timeout] ++ [.byte 0xAA] ∧
    [PortAnswer.byte 0x00, .timeout].length = (2 : BitVec 8).toNat ∧
    .byte 0xAA ∉ [PortAnswer.byte 0x00, .timeout] := by
  decide

theorem witness_MarkerAndHeaderSynchronize :
    0 < (withPort [.byte 0xAA, .byte 0x59]).scanMax.toNat ∧
    (withPort [.byte 0xAA, .byte 0x59]).port = .byte 0xAA :: .byte 0x59 :: [] ∧ hdrCheck 0x59 = true := by
  decide +kernel

theorem witness_DecodeBufExaminesTheBody :
    (withBody frameA).seq = .idle ∧ bodyCode (withBody frameA) = .ok ∧ bodyCode State.reset = .unknownReportId ∧
    bodyCode (withBody (0x01 :: frameA.tail)) = .checksumMismatch := by
  decide +kernel

theorem witness_PacketFieldValues : (withBody frameA).seq = .idle ∧ bodyCode (withBody frameA) = .ok := by
  decide +kernel

theorem witness_TrailerRoundTrip :
    (withBody frameA).fbuf.wf ∧
    ∀ j < 4, fbufByte (withBody frameA) (47 + j) =
      byteOf (BitVec.ofNat 32 (crcBits ((List.range 47).map (fbufByte (withBody frameA))) 32 0x04C11DB7)) j := by
  decide +kernel

theorem witness_DecodeRunsItsRule :
    (withPort (frameA.map .byte)).seq = .idle ∧
    (wholeDecode (after (exec .decode (withPort (frameA.map .byte))))).isSome = true ∧
    (wholeDecode (after (exec .decode (withPort [.timeout])))).isSome = true := by
  decide +kernel

theorem witness_ShortBodyEndsDecode :
    State.reset.fbuf.wf ∧ (withPort ([0x01, 0x02].map .byte ++ .timeout :: [])).port =
      [0x01, 0x02].map .byte ++ .timeout :: [] ∧ ([] : List Byte).length < 51 ∧
    (List.replicate 50 (0xAA : Byte)).length < 51 := by
  decide

theorem witness_FrameRunsItsRule :
    (wholeFrame (after (exec .frame (withPort (.byte 0xAA :: .byte 0x59 :: frameA.map .byte))))).isSome = true ∧
    (wholeFrame (after (exec .frame { withPort [] with scanMax := 0 }))).isSome = true := by
  decide +kernel

theorem witness_SilentSourceHangsTheCommand :
    wholeSync (after (exec .sync State.reset)) = none ∧ wholeDecode (after (exec .decode State.reset)) = none ∧
    wholeFrame (after (exec .frame (withPort [.byte 0xAA, .byte 0x59, .byte 0x01]))) = none := by
  decide +kernel

theorem witness_DecodeAndFrameEndSearching :
    (sequencerStep { withPort [.timeout] with seq := .run (.decode 7), syncState := .synchronized }).seq = .idle ∧
    (sequencerStep { withPort [.timeout] with seq := .run (.frame (.body 50)) }).seq = .idle ∧
    (Running.decode 7).op = .decode ∧ (Running.frame (.body 50)).op = .frame := by
  decide

theorem witness_ReadsAnswerTheRegister :
    unspecifiedRead .chkRem State.reset = false ∧ unspecifiedRead .crcCfg checking = false ∧
    unspecifiedRead .status checking = false := by
  decide +kernel

theorem witness_ReadsWhileBusyAreFree :
    checking.seq = .run (.crcCheck 4 0x9 0xAA59) ∧ writeSet (Running.crcCheck 4 0x9 0xAA59).op .chkRem = true ∧
    State.reset.seq = .idle := by
  decide +kernel

theorem witness_ReadOnlyWritesHaveNoEffect : Reg.readOnly .crcResult = true ∧ Reg.readOnly (.pktSum 5) = true := by decide

theorem witness_ConfigurationWritesStore : State.reset.seq = .idle := rfl

theorem witness_ReservedOffsets :
    [0x044, 0x05C, 0x0A0, 0x0FC, 0x134, 0x3FC, 0x800, 0xFFC].all reservedOffset = true ∧
    [0x040, 0x060, 0x09C, 0x100, 0x130, 0x400, 0x7FC].any reservedOffset = false := by
  decide

theorem witness_FbufWordAccess : (withBody frameA).seq = .idle ∧ (withBody frameA).fbuf.wf ∧ (12 : Nat) < 13 := by
  decide +kernel

theorem witness_TableAccess : ∀ W P n, tabled.seq ≠ .run (.tblBuild W P n) := fun _ _ _ h => nomatch h

theorem witness_RegisterFieldPositions : EngineInv (engine 4 0x9 0x60) := engineInv_narrow

theorem witness_ResetAtAnyTime :
    ({ withPort [.byte 0x01] with seq := .run (.decode 3), agenda := [.reset true] } : State).agenda = .reset true :: [] ∧
    ({ withPort [.byte 0x01] with seq := .run (.decode 3), agenda := [.reset true] } : State).readsPort = true ∧
    State.reset.readsPort = false := by
  decide

/-- A state in the middle of TBL_BUILD at (8, 0x07), entry 1 next. -/
def building : State := { engine 8 0x07 0 with seq := .run (.tblBuild 8 0x07 1) }

theorem witness_StepKeepsMemoryCanonical : MemoryInv (withBody frameA) ∧ ∃ t, step (withBody frameA) = .next t :=
  ⟨⟨by decide +kernel, by decide, by decide +kernel⟩, _, rfl⟩

theorem witness_StepKeepsEngine : EngineInv (engine 4 0x9 0x60) ∧ ∃ t, step (engine 4 0x9 0x60) = .next t :=
  ⟨engineInv_narrow, _, rfl⟩

theorem witness_StepKeepsTableExact : MemoryInv building ∧ TableInv building ∧ ∃ t, step building = .next t := by
  refine ⟨⟨by decide, by decide, by decide⟩, ⟨by decide, (fun h => nomatch h), ?_⟩, _, rfl⟩
  intro W P i h
  obtain ⟨rfl, rfl, rfl⟩ : (8 : BitVec 6) = W ∧ (0x07 : Word) = P ∧ 1 = i := by simpa [building] using h
  exact ⟨by decide, by decide, rfl, by unfold tableFilled; decide +kernel⟩

/-- A FRAME that searches and awaits a header, with the byte source's answers. -/
def searching (l : List PortAnswer) : State :=
  { withPort l with seq := .run (.frame (.search { budget := 100, reads := 3, fails := 2, pos := .header })) }

theorem seqInv_searching (l : List PortAnswer) : SeqInv (searching l) where
  running := by
    rintro c h
    obtain rfl : _ = c := SeqState.run.inj h
    exact ⟨rfl, rfl, rfl, rfl, (by decide : (3 : Nat) ≤ 100), (by decide : (2 : Nat) < 3)⟩
  fails_le_reads := Nat.le_refl 0

theorem witness_StepKeepsSequencerSane :
    SeqInv (searching [.timeout]) ∧ ∃ t, step (searching [.timeout]) = .next t :=
  ⟨seqInv_searching _, _, rfl⟩

theorem witness_StepKeepsPacketKnown :
    PacketInv { State.reset with pktValid := true, pkt := unpack (withBody frameA) } where
  valid := fun _ => by decide +kernel
  invalid := fun h => nomatch h

theorem witness_SequencerStaysInWriteSet :
    checking.seq = .run (.crcCheck 4 0x9 0xAA59) ∧ writeSet (Running.crcCheck 4 0x9 0xAA59).op .crcCfg = false ∧
    Reg.crcCfg ≠ .status := by
  decide +kernel

theorem witness_BusyFreezesConfiguration :
    checking.busy = true ∧ (∀ b rest, checking.agenda ≠ .reset b :: rest) ∧ ∃ t, step checking = .next t :=
  ⟨by decide +kernel, (fun _ _ h => nomatch h), _, rfl⟩

theorem witness_OnlyCrcInitLatches :
    (after (step { State.reset with crcWidth := 8, crcPoly := 0x07, agenda := [.host (.cmdw 1)] })).curWidth ≠ 32 ∧
    (after (step { State.reset with crcPoly := 0x07, agenda := [.host (mmioCode 0 (.write 1))] })).curPoly ≠
      0x04C11DB7 := by
  decide

theorem witness_StickyFlags :
    (after (step { State.reset with ovr := true, agenda := [.host (mmioCode 0x004 (.write 0x10))] })).ovr = false ∧
    (after (step { State.reset with pktValid := true, agenda := [.host (.cmdw 9)] })).pktValid = true := by
  decide

theorem witness_OnlyValidHeadersSynchronize :
    (after (step { withPort [.byte 0x59] with
      seq := .run (.sync { budget := 5, reads := 1, fails := 0, pos := .header }) })).syncState = .synchronized ∧
    (withPort [.byte 0x59]).syncState = .searching := by
  decide +kernel

theorem witness_PortIsReadInOrder :
    (after (step { withPort [.byte 0x59, .timeout] with seq := .run (.decode 0) })).port = [.timeout] := by
  decide

theorem witness_EveryCommandFinishes :
    SeqInv (searching (List.replicate 561 .timeout)) ∧ 561 ≤ (searching (List.replicate 561 .timeout)).port.length :=
  ⟨seqInv_searching _, Nat.le_of_eq List.length_replicate.symm⟩

theorem witness_AgentsTakeTheirTurns :
    State.reset.agenda = [] ∧ State.reset.seq = .idle ∧ checking.busy = true ∧
    ({ checking with agenda := [.sequencer] } : State).agenda = .sequencer :: [] ∧
    ({ checking with agenda := [.byteSource .timeout] } : State).agenda = .byteSource .timeout :: [] ∧
    (∀ e ∈ ([] : List Event).head?, e = .poll ∨ ∃ c, e = .host c) ∧
    (∀ e ∈ [Event.host (.cmdw 0)].head?, e = .poll ∨ ∃ c, e = .host c) ∧
    ({ checking with agenda := [.poll, .reset true] } : State).agenda = .poll :: .reset true :: [] :=
  ⟨rfl, rfl, by decide +kernel, rfl, rfl, (fun _ h => nomatch h),
    (fun e h => .inr ⟨.cmdw 0, (Option.some.inj h).symm⟩), rfl⟩

end Sys2Proof.Tests
end

section
/-! The scope of the model (spec/00_scope.md): whose turn a step is. -/

namespace Sys2Proof.Machine

open Sys2Proof

/-! ### The host's own events, and the agenda behind a poll -/

theorem Event.ofHost_eq_true_iff (e : Event) : e.ofHost = true ↔ e = .poll ∨ ∃ c, e = .host c := by
  cases e <;> simp [Event.ofHost]

theorem Event.ofHost_eq_false_iff (e : Event) :
    e.ofHost = false ↔ e = .sequencer ∨ (∃ a, e = .byteSource a) ∨ ∃ b, e = .reset b := by
  cases e <;> simp [Event.ofHost]

/-- With an access of the host next, or nothing, a busy poll waits for a step of the sequencer (log 15). -/
theorem pollAgenda_busy_of_ofHost {rest : List Event} (h : ∀ e ∈ rest.head?, e.ofHost = true) :
    pollAgenda true rest = .sequencer :: .poll :: rest := by
  obtain ⟨hq, -⟩ | ⟨e, l, rfl, he, -⟩ := pollAgenda_busy rest
  · exact hq
  · simp [he] at h

/-- With an event of another agent next, a busy poll waits for that event (log 15). -/
theorem pollAgenda_busy_cons_of_not_ofHost {e : Event} (h : e.ofHost = false) (l : List Event) :
    pollAgenda true (e :: l) = e :: .poll :: l := by
  simp [pollAgenda, h]

/-! ### A poll's read of STATUS -/

@[simp] theorem statusWord_withAgenda (l : List Event) (s : State) :
    statusWord (withAgenda l s) = statusWord s := rfl

/-- A STATUS read is exact, busy or not (R36, R72). -/
theorem hostRead_status (s : State) : hostRead .status s = { s with bus := .data (statusWord s) } := by
  obtain ⟨-, h⟩ | ⟨h, -⟩ := hostRead_cases .status s
  · exact h
  · rw [unspecifiedRead_status] at h
    contradiction

theorem step_poll_status {s : State} {rest : List Event} (h : s.agenda = .poll :: rest) :
    step s = .next { s with agenda := pollAgenda s.busy rest, bus := .data (statusWord s) } := by
  rw [step_poll h, hostRead_status, statusWord_withAgenda]
  rfl

/-- Settles O60, a rule of `step` for each first event; a poll is the STATUS read of `step_poll_status`, and what it
leaves on the agenda depends on BUSY and on whether the next event is the host's own. -/
theorem agentsTakeTheirTurns : Obligations.AgentsTakeTheirTurns := by
  intro s rest
  refine ⟨step_empty, step_sequencer, fun a => step_byteSource, ?pollIdle, ?pollBusyHostNext, ?pollBusyOtherNext⟩
  case pollIdle =>
    intro h hidle
    rw [step_poll_status h, (busy_eq_false_iff s).2 hidle, pollAgenda_idle]
  case pollBusyHostNext =>
    intro h hbusy hnext
    have hhost : ∀ e ∈ rest.head?, e.ofHost = true := fun e he => e.ofHost_eq_true_iff.2 (hnext e he)
    rw [step_poll_status h, hbusy, pollAgenda_busy_of_ofHost hhost]
  case pollBusyOtherNext =>
    intro e l h hbusy hother
    rw [step_poll_status h, hbusy, pollAgenda_busy_cons_of_not_ofHost (e.ofHost_eq_false_iff.2 hother)]

end Sys2Proof.Machine
end

section
/-! What an instruction and a step can do, said once: a command, a register access, a turn of the sequencer or of
another agent, or a reset (spec/10_state.md R31, R34, R71; spec/00_scope.md R19). -/

namespace Sys2Proof.Machine

open Sys2Proof

/-! ### Commands and register accesses -/

/-- What an accepted command does at once (30_encoding R145, R147). -/
def commandRule : Command → State → State
  | .nop => finish .ok
  | .crcInit => ruleCrcInit
  | .crcUpdBit b => ruleCrcUpdBit b
  | .crcUpdTbl b => ruleCrcUpdTbl b
  | .tblBuild => ruleTblBuild
  | .crcCheck => ruleCrcCheck
  | .sync => ruleSync
  | .decode => ruleDecode
  | .frame => ruleFrame
  | .decodeBuf => ruleDecodeBuf
  | .illegal _ => finish .illegalCmd

theorem exec_command (c : Command) :
    ∃ w, ∀ s, exec c.toInstr s = .next (issue w (commandRule c) s) := by
  cases c <;> exact ⟨_, fun _ => rfl⟩

/-- What an accepted write of a writable register stores (10_state R34); CMD and STATUS have rules of their own. -/
def regStore : Reg → Word → State → State
  | .crcCfg, v, s => { s with crcWidth := v.extractLsb' 0 6 }
  | .crcPoly, v, s => { s with crcPoly := v }
  | .chkPayload, v, s => { s with chkPayload := v }
  | .chkSum, v, s => { s with chkSum := v }
  | .syncCfg, v, s => { s with scanMax := v.extractLsb' 0 8 }
  | .sensorNum, v, s => { s with sensorNum := v.extractLsb' 0 8 }
  | .fbuf k, v, s => storeFbufWord k v s
  | _, _, s => s

/-- An FBUF word of the map is an RW register. -/
theorem exec_fbuf (k : Fin 13) (a : Access) (s : State) :
    exec (Reg.instr (.fbuf k) a) s = .next (accessRW (.fbuf k) (storeFbufWord k) a s) := by
  have hval : (BitVec.ofNat 4 k.val).toNat = k.val := by
    rw [BitVec.toNat_ofNat]; omega
  have hlt : (BitVec.ofNat 4 k.val).toNat < 13 := by rw [hval]; exact k.isLt
  show Host.Outcome.next (accessFbuf (BitVec.ofNat 4 k.val) a s) = _
  rw [accessFbuf_of_lt hlt]
  simp only [hval]

theorem exec_read (r : Reg) (s : State) : exec (r.instr .read) s = .next (hostRead r s) := by
  cases r with
  | pktDiff j => fin_cases j <;> rfl
  | pktSum j => fin_cases j <;> rfl
  | fbuf k => rw [exec_fbuf, accessRW_read]
  | _ => rfl

theorem exec_write_readOnly {r : Reg} (h : r.readOnly = true) (v : Word) (s : State) :
    exec (r.instr (.write v)) s = .next (answer .done s) := by
  cases r with
  | pktDiff j => fin_cases j <;> rfl
  | pktSum j => fin_cases j <;> rfl
  | cmd | status | crcCfg | crcPoly | chkPayload | chkSum | syncCfg | sensorNum | fbuf => cases h
  | _ => rfl

theorem exec_write_status (v : Word) (s : State) :
    exec (.mmioStatus (.write v)) s = .next (statusWrite v (answer .done s)) := rfl

theorem exec_write_cmd (w : Word) (s : State) :
    exec (.mmioCmd (.write w)) s = exec (decodeCommand w).toInstr s := issueWord_eq w s

/-- A write of a writable register other than CMD and STATUS stores, but is refused while BUSY (R71). -/
theorem exec_write_config {r : Reg} (hw : r.readOnly = false) (hcmd : r ≠ .cmd) (hstatus : r ≠ .status) (v : Word)
    (s : State) : exec (r.instr (.write v)) s = .next (accessRW r (regStore r) (.write v) s) := by
  cases r with
  | cmd => exact absurd rfl hcmd
  | status => exact absurd rfl hstatus
  | fbuf k => exact exec_fbuf k _ s
  | crcCfg | crcPoly | chkPayload | chkSum | syncCfg | sensorNum => rfl
  | _ => cases hw

/-- Every instruction is a command, an access to a register of the map, or one to no register. -/
theorem instr_cases (i : Instr) :
    (∃ c : Command, i = c.toInstr) ∨ (∃ (r : Reg) (a : Access), i = r.instr a) ∨
      ∃ a, ∀ s, exec i s = .next (accessReserved a s) := by
  cases i with
  | nop => exact .inl ⟨.nop, rfl⟩
  | crcInit => exact .inl ⟨.crcInit, rfl⟩
  | crcUpdBit b => exact .inl ⟨.crcUpdBit b, rfl⟩
  | crcUpdTbl b => exact .inl ⟨.crcUpdTbl b, rfl⟩
  | tblBuild => exact .inl ⟨.tblBuild, rfl⟩
  | crcCheck => exact .inl ⟨.crcCheck, rfl⟩
  | sync => exact .inl ⟨.sync, rfl⟩
  | decode => exact .inl ⟨.decode, rfl⟩
  | frame => exact .inl ⟨.frame, rfl⟩
  | decodeBuf => exact .inl ⟨.decodeBuf, rfl⟩
  | illegalCmd w => exact .inl ⟨.illegal w, rfl⟩
  | mmioCmd a => exact .inr (.inl ⟨.cmd, a, rfl⟩)
  | mmioStatus a => exact .inr (.inl ⟨.status, a, rfl⟩)
  | mmioCrcCfg a => exact .inr (.inl ⟨.crcCfg, a, rfl⟩)
  | mmioCrcPoly a => exact .inr (.inl ⟨.crcPoly, a, rfl⟩)
  | mmioCrcResult a => exact .inr (.inl ⟨.crcResult, a, rfl⟩)
  | mmioCrcCur a => exact .inr (.inl ⟨.crcCur, a, rfl⟩)
  | mmioCrcCurPoly a => exact .inr (.inl ⟨.crcCurPoly, a, rfl⟩)
  | mmioChkPayload a => exact .inr (.inl ⟨.chkPayload, a, rfl⟩)
  | mmioChkSum a => exact .inr (.inl ⟨.chkSum, a, rfl⟩)
  | mmioChkRem a => exact .inr (.inl ⟨.chkRem, a, rfl⟩)
  | mmioSyncCfg a => exact .inr (.inl ⟨.syncCfg, a, rfl⟩)
  | mmioSensorNum a => exact .inr (.inl ⟨.sensorNum, a, rfl⟩)
  | mmioHdrInfo a => exact .inr (.inl ⟨.hdrInfo, a, rfl⟩)
  | mmioCrcRx a => exact .inr (.inl ⟨.crcRx, a, rfl⟩)
  | mmioCrcCalc a => exact .inr (.inl ⟨.crcCalc, a, rfl⟩)
  | mmioTblInfo a => exact .inr (.inl ⟨.tblInfo, a, rfl⟩)
  | mmioTblPoly a => exact .inr (.inl ⟨.tblPoly, a, rfl⟩)
  | mmioPktDiff0 a => exact .inr (.inl ⟨.pktDiff 0, a, rfl⟩)
  | mmioPktDiff1 a => exact .inr (.inl ⟨.pktDiff 1, a, rfl⟩)
  | mmioPktDiff2 a => exact .inr (.inl ⟨.pktDiff 2, a, rfl⟩)
  | mmioPktDiff3 a => exact .inr (.inl ⟨.pktDiff 3, a, rfl⟩)
  | mmioPktDiff4 a => exact .inr (.inl ⟨.pktDiff 4, a, rfl⟩)
  | mmioPktDiff5 a => exact .inr (.inl ⟨.pktDiff 5, a, rfl⟩)
  | mmioPktSum0 a => exact .inr (.inl ⟨.pktSum 0, a, rfl⟩)
  | mmioPktSum1 a => exact .inr (.inl ⟨.pktSum 1, a, rfl⟩)
  | mmioPktSum2 a => exact .inr (.inl ⟨.pktSum 2, a, rfl⟩)
  | mmioPktSum3 a => exact .inr (.inl ⟨.pktSum 3, a, rfl⟩)
  | mmioPktSum4 a => exact .inr (.inl ⟨.pktSum 4, a, rfl⟩)
  | mmioPktSum5 a => exact .inr (.inl ⟨.pktSum 5, a, rfl⟩)
  | mmioPktInfo a => exact .inr (.inl ⟨.pktInfo, a, rfl⟩)
  | mmioPktDelay a => exact .inr (.inl ⟨.pktDelay, a, rfl⟩)
  | mmioPktImuXy a => exact .inr (.inl ⟨.pktImuXy, a, rfl⟩)
  | mmioPktImuZ a => exact .inr (.inl ⟨.pktImuZ, a, rfl⟩)
  | mmioTable j a => exact .inr (.inl ⟨.table j, a, rfl⟩)
  | mmioReserved o a => exact .inr (.inr ⟨a, fun _ => rfl⟩)
  | mmioFbuf k a =>
    by_cases hk : k.toNat < 13
    · exact .inr (.inl ⟨.fbuf ⟨k.toNat, hk⟩, a, by simp [Reg.instr]⟩)
    · refine .inr (.inr ⟨a, fun s => ?_⟩)
      show Host.Outcome.next (accessFbuf k a s) = _
      rw [accessFbuf, dif_neg hk]

/-! ### The fields of the external agents -/

/-- The model's own fields, which nothing in FSCORE but the byte port reads (log 1, 3, 4, 5). -/
structure AgentFields where
  agenda : List Event
  port : List PortAnswer
  bus : BusAnswer
  freeCount : Nat

/-- s with other values in the model's own fields; FSCORE's state is that of s. -/
def withAgents (g : AgentFields) (s : State) : State :=
  { s with agenda := g.agenda, port := g.port, bus := g.bus, freeCount := g.freeCount }

@[simp] theorem withAgents_ovr (g : AgentFields) (s : State) : (withAgents g s).ovr = s.ovr := rfl

theorem withAgents_withAgenda (g : AgentFields) (l : List Event) (s : State) :
    withAgents g (withAgenda l s) = withAgents g s := rfl

theorem answer_eq_withAgents (b : BusAnswer) (s : State) :
    answer b s = withAgents ⟨s.agenda, s.port, b, s.freeCount⟩ s := rfl

theorem hostRead_eq_withAgents (r : Reg) (s : State) : ∃ g, hostRead r s = withAgents g s := by
  obtain ⟨-, h⟩ | ⟨-, h⟩ := hostRead_cases r s
  · exact ⟨⟨s.agenda, s.port, .data (regValue r s), s.freeCount⟩, h⟩
  · exact ⟨⟨s.agenda, s.port, .data (Config.busyRead s.freeCount), s.freeCount + 1⟩, h⟩

theorem platformReset_eq_withAgents (b : Bool) (s : State) : ∃ g, platformReset b s = withAgents g State.reset :=
  ⟨⟨s.agenda, (platformReset b s).port, s.bus, s.freeCount⟩, platformReset_eq b s⟩

/-! ### What an instruction can do -/

/-- The instruction is an encoded form of command c: its command word, or a CMD write of that word (log 10). -/
def issues (i : Instr) (c : Command) : Prop :=
  i = c.toInstr ∨ ∃ w, i = .mmioCmd (.write w) ∧ decodeCommand w = c

/-- What executing i in s can lead to. -/
inductive ExecEffect (i : Instr) (s : State) : State → Prop
  | agents (g : AgentFields) : ExecEffect i s (withAgents g s)
  | refused (g : AgentFields) (hbusy : s.busy = true) : ExecEffect i s (refuseWrite (withAgents g s))
  | status (g : AgentFields) (v : Word) (hi : i = .mmioStatus (.write v)) :
    ExecEffect i s (statusWrite v (withAgents g s))
  | store (g : AgentFields) (r : Reg) (v : Word) (hidle : s.seq = .idle) :
    ExecEffect i s (regStore r v (withAgents g s))
  | command (g : AgentFields) (c : Command) (w : Word) (hidle : s.seq = .idle) (hc : issues i c) :
    ExecEffect i s (commandRule c (accept w (withAgents g s)))

theorem ExecEffect.of_answer (i : Instr) (b : BusAnswer) (s : State) : ExecEffect i s (answer b s) :=
  answer_eq_withAgents b s ▸ .agents _

theorem ExecEffect.of_issue {i : Instr} {c : Command} (hc : issues i c) (w : Word) (s : State) :
    ExecEffect i s (issue w (commandRule c) s) := by
  cases hb : s.busy with
  | false =>
    have hidle := (busy_eq_false_iff s).1 hb
    rw [issue_idle hidle, answer_eq_withAgents]
    exact .command _ c w hidle hc
  | true =>
    rw [issue_busy hb, answer_eq_withAgents]
    exact .refused _ hb

theorem ExecEffect.of_accessRW (i : Instr) (r : Reg) (v : Word) (s : State) :
    ExecEffect i s (accessRW r (regStore r) (.write v) s) := by
  cases hb : s.busy with
  | false =>
    have hidle := (busy_eq_false_iff s).1 hb
    rw [accessRW_write_idle hidle, answer_eq_withAgents]
    exact .store _ r v hidle
  | true =>
    rw [accessRW_write_busy hb, answer_eq_withAgents]
    exact .refused _ hb

theorem ExecEffect.of_read (i : Instr) (r : Reg) (s : State) : ExecEffect i s (hostRead r s) := by
  obtain ⟨g, hg⟩ := hostRead_eq_withAgents r s
  exact hg ▸ .agents g

theorem ExecEffect.of_write (r : Reg) (v : Word) (s : State) :
    ∃ t, exec (r.instr (.write v)) s = .next t ∧ ExecEffect (r.instr (.write v)) s t := by
  cases hro : r.readOnly with
  | true => exact ⟨_, exec_write_readOnly hro v s, .of_answer _ _ s⟩
  | false =>
    by_cases hcmd : r = .cmd
    · subst hcmd
      obtain ⟨w, hw⟩ := exec_command (decodeCommand v)
      exact ⟨_, (exec_write_cmd v s).trans (hw s), .of_issue (.inr ⟨v, rfl, rfl⟩) w s⟩
    by_cases hst : r = .status
    · subst hst
      exact ⟨_, exec_write_status v s, answer_eq_withAgents .done s ▸ .status _ v rfl⟩
    exact ⟨_, exec_write_config hro hcmd hst v s, .of_accessRW _ r v s⟩

theorem exec_effect {i : Instr} {s t : State} (h : exec i s = .next t) : ExecEffect i s t := by
  have of_eq : ∀ {u}, exec i s = .next u → ExecEffect i s u → ExecEffect i s t := by
    intro u hu he
    obtain rfl : u = t := Host.Outcome.next.inj (hu.symm.trans h)
    exact he
  obtain ⟨c, rfl⟩ | ⟨r, a, rfl⟩ | ⟨a, ha⟩ := instr_cases i
  · obtain ⟨w, hw⟩ := exec_command c
    exact of_eq (hw s) (.of_issue (.inl rfl) w s)
  · cases a with
    | read => exact of_eq (exec_read r s) (.of_read _ r s)
    | write v =>
      obtain ⟨u, hu, he⟩ := ExecEffect.of_write r v s
      exact of_eq hu he
  · cases a <;> exact of_eq (ha s) (.of_answer _ _ s)

/-! ### What a step can do -/

/-- What a step from s can lead to, by the agent whose turn it is (00_scope R19). -/
inductive StepEffect (s : State) : State → Prop
  | host (c : Code) (rest : List Event) (i : Instr) (g : AgentFields) {t : State} (ha : s.agenda = .host c :: rest)
    (hd : decode c = .ok i) (he : ExecEffect i (withAgents g s) t) : StepEffect s t
  | agents (g : AgentFields) : StepEffect s (withAgents g s)
  | sequencer (g : AgentFields) : StepEffect s (sequencerStep (withAgents g s))
  | reset (g : AgentFields) (b : Bool) (rest : List Event) (ha : s.agenda = .reset b :: rest) :
    StepEffect s (withAgents g State.reset)

theorem step_effect {s t : State} (h : step s = .next t) : StepEffect s t := by
  obtain ⟨-, rfl⟩ | ⟨c, rest, i, ha, hd, he⟩ | ⟨c, rest, e, ha, hd, rfl⟩ | ⟨rest, ha, rfl⟩ | ⟨rest, ha, rfl⟩ |
    ⟨a, rest, ha, rfl⟩ | ⟨b, rest, ha, rfl⟩ := step_cases h
  · exact .sequencer ⟨s.agenda, s.port, s.bus, s.freeCount⟩
  · exact .host c rest i ⟨rest, s.port, s.bus, s.freeCount⟩ ha hd (exec_effect he)
  · exact .agents ⟨rest, s.port, .error, s.freeCount⟩
  · obtain ⟨g, hg⟩ := hostRead_eq_withAgents .status (withAgenda (pollAgenda s.busy rest) s)
    rw [hg, withAgents_withAgenda]
    exact .agents g
  · exact .sequencer ⟨rest, s.port, s.bus, s.freeCount⟩
  · exact .agents ⟨rest, s.port ++ [a], s.bus, s.freeCount⟩
  · obtain ⟨g, hg⟩ := platformReset_eq_withAgents b (withAgenda rest s)
    rw [hg]
    exact .reset g b rest ha

/-- An invariant of FSCORE's state is kept by a step if each of the things a step can do keeps it. -/
theorem step_keeps {P : State → Prop} (reset : P State.reset) (agents : ∀ g s, P s → P (withAgents g s))
    (overrun : ∀ b s, P s → P { s with ovr := b }) (store : ∀ r v s, s.seq = .idle → P s → P (regStore r v s))
    (command : ∀ c w s, s.seq = .idle → P s → P (commandRule c (accept w s)))
    (sequencer : ∀ s, P s → P (sequencerStep s)) {s t : State} (hs : P s) (h : step s = .next t) : P t := by
  cases step_effect h with
  | host c rest i g ha hd he =>
    have hs := agents g s hs
    cases he with
    | agents g => exact agents g _ hs
    | refused g hbusy => exact overrun true _ (agents g _ hs)
    | status g v hi =>
      rw [statusWrite_eq]
      exact overrun _ _ (agents g _ hs)
    | store g r v hidle => exact store r v _ hidle (agents g _ hs)
    | command g c w hidle hc => exact command c w _ hidle (agents g _ hs)
  | agents g => exact agents g s hs
  | sequencer g => exact sequencer _ (agents g s hs)
  | reset g b rest ha => exact agents g _ reset

end Sys2Proof.Machine
end

section
/-! What a register write, an accepted command and a turn of the sequencer can change, said once each (spec/10_state.md
R71, R322 of spec/60_exceptions.md). -/

namespace Sys2Proof.Machine

open Sys2Proof

/-! ### A register write -/

/-- A register write changes the configuration registers and FBUF only. -/
theorem regStore_eq (r : Reg) (v : Word) (s : State) :
    regStore r v s =
      { s with
        crcWidth := (regStore r v s).crcWidth, crcPoly := (regStore r v s).crcPoly
        chkPayload := (regStore r v s).chkPayload, chkSum := (regStore r v s).chkSum
        scanMax := (regStore r v s).scanMax, sensorNum := (regStore r v s).sensorNum
        fbuf := (regStore r v s).fbuf } := by
  cases r with
  | fbuf k => simp only [regStore, storeFbufWord, storeFbuf_eq]
  | _ => rfl

/-! ### An accepted command -/

/-- CRC_INIT latches a legal configuration, or is refused (40_crc_engine R178). -/
theorem ruleCrcInit_cases (s : State) :
    (cfgLegal s.crcWidth.toNat s.crcPoly.toNat = true ∧
      ruleCrcInit s = finish .ok { s with curWidth := s.crcWidth, curPoly := s.crcPoly, crcReg := 0 }) ∨
      ruleCrcInit s = finish .configError s := by
  unfold ruleCrcInit
  split
  · exact .inl ⟨by assumption, rfl⟩
  · exact .inr rfl

/-- CRC_UPD_TBL takes the byte at a wide width, or is refused (R191). -/
theorem ruleCrcUpdTbl_cases (b : Byte) (s : State) :
    (s.curWidth ≠ 4 ∧ ruleCrcUpdTbl b s = finish .ok { s with crcReg := crcRegTbl s b }) ∨
      ∃ code, ruleCrcUpdTbl b s = finish code s := by
  unfold ruleCrcUpdTbl
  split
  · exact .inr ⟨_, rfl⟩
  · split
    · exact .inl ⟨by assumption, rfl⟩
    · exact .inr ⟨_, rfl⟩

/-- TBL_BUILD starts for a legal configuration, the table invalid, or is refused (R185). -/
theorem ruleTblBuild_cases (s : State) :
    (cfgLegal s.crcWidth.toNat s.crcPoly.toNat = true ∧
      ruleTblBuild s = start (.tblBuild s.crcWidth s.crcPoly 0) { s with tblValid := false }) ∨
      ruleTblBuild s = finish .configError s := by
  unfold ruleTblBuild
  split
  · exact .inl ⟨by assumption, rfl⟩
  · exact .inr rfl

/-- CRC_CHECK clears CHK_PASS, and starts for a legal configuration and an n-bit checksum, or is refused (R205). -/
theorem ruleCrcCheck_cases (s : State) :
    (cfgLegal s.crcWidth.toNat s.crcPoly.toNat = true ∧ s.chkSum.toNat < 2 ^ s.crcWidth.toNat ∧
      ruleCrcCheck s =
        start (.crcCheck s.crcWidth s.crcPoly (ldStart s.chkPayload.toNat s.chkSum.toNat s.crcWidth.toNat))
          { s with chkPass := false }) ∨
      ruleCrcCheck s = finish .configError { s with chkPass := false } := by
  unfold ruleCrcCheck
  dsimp only
  split
  · rename_i h
    obtain ⟨hlegal, hops⟩ := Bool.and_eq_true_iff.1 h
    exact .inl ⟨hlegal, of_decide_eq_true (Bool.and_eq_true_iff.1 hops).1, rfl⟩
  · exact .inr rfl

/-- An accepted command changes at once the latched configuration, `crc_reg`, CHK_PASS, `tbl_valid`, `sync_state` and
the sequencer's state only. -/
theorem commandRule_eq (c : Command) (s : State) :
    commandRule c s =
      { s with
        curWidth := (commandRule c s).curWidth, curPoly := (commandRule c s).curPoly
        crcReg := (commandRule c s).crcReg, chkPass := (commandRule c s).chkPass
        tblValid := (commandRule c s).tblValid, syncState := (commandRule c s).syncState
        seq := (commandRule c s).seq, done := (commandRule c s).done, err := (commandRule c s).err } := by
  cases c with
  | crcInit => obtain ⟨-, h⟩ | h := ruleCrcInit_cases s <;> simp only [commandRule, h] <;> rfl
  | crcUpdTbl b => obtain ⟨-, h⟩ | ⟨_, h⟩ := ruleCrcUpdTbl_cases b s <;> simp only [commandRule, h] <;> rfl
  | tblBuild => obtain ⟨-, h⟩ | h := ruleTblBuild_cases s <;> simp only [commandRule, h] <;> rfl
  | crcCheck => obtain ⟨-, -, h⟩ | h := ruleCrcCheck_cases s <;> simp only [commandRule, h] <;> rfl
  | _ => rfl

/-! ### A turn of the sequencer -/

/-- A search with locals r' is sane wherever one with locals r is (41_frame_sync R232, R236). -/
def keepsSane (r r' : SyncRun) : Prop := ∀ u, searchSane u r → searchSane u r'

/-- What a step of `SyncCore` can lead to: the search goes on, times out, or finds a header. -/
inductive SearchEffect (r : SyncRun) (s : State) : SearchResult → Prop
  | searching (l : List PortAnswer) (r' : SyncRun) (hr : keepsSane r r') :
    SearchEffect r s (.searching r' { s with port := l })
  | timeout (l : List PortAnswer) (r' : SyncRun) (hr : keepsSane r r') :
    SearchEffect r s (searchTimeout r' { s with port := l })
  | found (l : List PortAnswer) (h : Byte) : SearchEffect r s (searchFound r h { s with port := l })

/-- After an answer that is no valid header the search looks for the next candidate, or times out. -/
theorem SearchEffect.of_searchOn {r q : SyncRun} (hq : keepsSane r { q with pos := .candidate })
    (l : List PortAnswer) (s : State) : SearchEffect r s (searchOn q { s with port := l }) := by
  obtain ⟨-, ho⟩ | ⟨-, ho⟩ := searchOn_cases q { s with port := l }
  · exact ho ▸ .searching l _ hq
  · exact ho ▸ .timeout l { q with pos := .candidate } hq

theorem searchCandidate_effect {r : SyncRun} (hpos : r.pos = .candidate) (s : State) :
    SearchEffect r s (searchCandidate r s) := by
  obtain ⟨budget, reads, fails, pos⟩ := r
  obtain rfl : pos = .candidate := hpos
  obtain ⟨-, h⟩ | ⟨-, -, h⟩ | ⟨hlt, rest, -, h⟩ | ⟨hlt, a, rest, -, -, h⟩ := searchCandidate_cases _ s <;> rw [h]
  · exact .timeout s.port _ fun _ hr => hr
  · exact .searching s.port _ fun _ hr => hr
  · refine .searching rest _ fun u ⟨hsync, hbudget, hreads, hfails⟩ => ⟨hsync, hbudget, hlt, ?_⟩
    exact Nat.lt_succ_of_le hfails
  · refine .of_searchOn (fun u ⟨hsync, hbudget, hreads, hfails⟩ => ⟨hsync, hbudget, hlt, ?_⟩) rest s
    exact Nat.le_succ_of_le hfails

theorem searchHeader_effect {r : SyncRun} (hpos : r.pos = .header) (s : State) :
    SearchEffect r s (searchHeader r s) := by
  obtain ⟨budget, reads, fails, pos⟩ := r
  obtain rfl : pos = .header := hpos
  have failed : keepsSane ⟨budget, reads, fails, .header⟩ ⟨budget, reads, fails + 1, .candidate⟩ :=
    fun u ⟨hsync, hbudget, hreads, hfails⟩ => ⟨hsync, hbudget, hreads, hfails⟩
  obtain ⟨-, h⟩ | ⟨rest, -, h⟩ | ⟨b, rest, -, -, h⟩ | ⟨b, rest, -, -, h⟩ := searchHeader_cases _ s <;> rw [h]
  · exact .searching s.port _ fun _ hr => hr
  · exact .of_searchOn failed rest s
  · exact .found rest b
  · exact .of_searchOn failed rest s

theorem searchStep_effect (r : SyncRun) (s : State) : SearchEffect r s (searchStep r s) := by
  unfold searchStep
  split
  · exact searchCandidate_effect (by assumption) s
  · exact searchHeader_effect (by assumption) s

/-- The state a search step leaves. -/
def SearchResult.state : SearchResult → State
  | .searching _ s => s
  | .ended _ s => s

/-- The state a body step leaves. -/
def BodyResult.state : BodyResult → State
  | .reading _ s => s
  | .ended _ s => s

theorem syncStep_cases (r : SyncRun) (s : State) :
    (∃ r' t, searchStep r s = .searching r' t ∧ syncStep r s = start (.sync r') t) ∨
      ∃ code t, searchStep r s = .ended code t ∧ syncStep r s = finish code t := by
  unfold syncStep
  cases searchStep r s with
  | searching r' t => exact .inl ⟨r', t, rfl, rfl⟩
  | ended code t => exact .inr ⟨code, t, rfl, rfl⟩

theorem decodeStep_cases (k : Nat) (s : State) :
    (∃ k' t, bodyStep k s = .reading k' t ∧ decodeStep k s = start (.decode k') t) ∨
      ∃ code t, bodyStep k s = .ended code t ∧ decodeStep k s = endFrame code t := by
  unfold decodeStep
  cases bodyStep k s with
  | reading k' t => exact .inl ⟨k', t, rfl, rfl⟩
  | ended code t => exact .inr ⟨code, t, rfl, rfl⟩

/-- FRAME's search goes on, is followed by the body, or ends the command (42_packet_decoder R269). -/
theorem frameStep_search_cases (r : SyncRun) (s : State) :
    (∃ r' t, searchStep r s = .searching r' t ∧ frameStep (.search r) s = start (.frame (.search r')) t) ∨
    (∃ t, searchStep r s = .ended .ok t ∧ frameStep (.search r) s = start (.frame (.body 0)) t) ∨
      ∃ code t, searchStep r s = .ended code t ∧ frameStep (.search r) s = endFrame code t := by
  simp only [frameStep]
  cases searchStep r s with
  | searching r' t => exact .inl ⟨r', t, rfl, rfl⟩
  | ended code t =>
    cases code with
    | ok => exact .inr (.inl ⟨t, rfl, rfl⟩)
    | _ => exact .inr (.inr ⟨_, t, rfl, rfl⟩)

theorem frameStep_body_cases (k : Nat) (s : State) :
    (∃ k' t, bodyStep k s = .reading k' t ∧ frameStep (.body k) s = start (.frame (.body k')) t) ∨
      ∃ code t, bodyStep k s = .ended code t ∧ frameStep (.body k) s = endFrame code t := by
  simp only [frameStep]
  cases bodyStep k s with
  | reading k' t => exact .inl ⟨k', t, rfl, rfl⟩
  | ended code t => exact .inr ⟨code, t, rfl, rfl⟩

/-- P is kept by each operation the sequencer's steps are made of: a command's progress and its end with the header and
the answers read on the way, a division's result, the table's tag, an entry of TABLE, a byte of FBUF, and a decode. -/
structure SequencerKeeps (P : State → Prop) : Prop where
  progress : ∀ s q d e y h l, P s →
    P { s with seq := q, done := d, err := e, syncState := y, hdr := h, port := l }
  result : ∀ s rem pass, P s → P { s with chkRem := rem, chkPass := pass }
  tag : ∀ s W p v, P s → P { s with tblWidth := W, tblPoly := p, tblValid := v }
  entry : ∀ i v s, P s → P (storeTable i v s)
  byte : ∀ k b s, P s → P (storeFbuf k b s)
  decode : ∀ s, P s → P (decodeBody s)

namespace SequencerKeeps

variable {P : State → Prop} (hP : SequencerKeeps P) {s : State} (hs : P s)
include hP hs

theorem start (c : Running) : P (start c s) := hP.progress s (.run c) _ _ _ _ _ hs

theorem finish (code : ErrCode) : P (finish code s) := hP.progress s .idle true code _ _ _ hs

theorem endFrame (code : ErrCode) : P (endFrame code s) := hP.progress s .idle true code .searching _ _ hs

theorem port (l : List PortAnswer) : P { s with port := l } := hP.progress s _ _ _ _ _ l hs

theorem search {r : SyncRun} {res : SearchResult} (h : SearchEffect r s res) : P res.state := by
  cases h with
  | searching l r' hr => exact hP.port hs l
  | timeout l r' hr => exact hP.progress s _ _ _ _ _ l hs
  | found l h => exact hP.progress s _ _ _ _ _ l hs

theorem body (k : Nat) : P (bodyStep k s).state := by
  obtain ⟨-, h⟩ | ⟨rest, -, h⟩ | ⟨b, rest, -, -, h⟩ | ⟨b, rest, -, -, h⟩ := bodyStep_cases k s <;> rw [h]
  · exact hs
  · exact hP.port hs rest
  · exact hP.byte k b _ (hP.port hs rest)
  · exact hP.decode _ (hP.byte k b _ (hP.port hs rest))

theorem tblBuildStep (W : BitVec 6) (p : Word) (i : Nat) : P (tblBuildStep W p i s) := by
  obtain ⟨-, h⟩ | ⟨-, h⟩ := tblBuildStep_cases W p i s <;> rw [h]
  · exact hP.start (hP.entry _ _ s hs) _
  · exact hP.finish (hP.tag _ W p true (hP.entry _ _ s hs)) _

theorem crcCheckStep (W : BitVec 6) (p : Word) (w : Nat) : P (crcCheckStep W p w s) := by
  obtain ⟨-, h⟩ | ⟨-, h⟩ := crcCheckStep_cases W p w s <;> rw [h]
  · exact hP.start hs _
  · exact hP.finish (hP.result s _ _ hs) _

theorem syncStep (r : SyncRun) : P (syncStep r s) := by
  have hres := hP.search hs (searchStep_effect r s)
  obtain ⟨r', t, he, h⟩ | ⟨code, t, he, h⟩ := syncStep_cases r s <;> rw [h] <;> rw [he] at hres
  · exact hP.start hres _
  · exact hP.finish hres _

theorem decodeStep (k : Nat) : P (decodeStep k s) := by
  have hres := hP.body hs k
  obtain ⟨k', t, he, h⟩ | ⟨code, t, he, h⟩ := decodeStep_cases k s <;> rw [h] <;> rw [he] at hres
  · exact hP.start hres _
  · exact hP.endFrame hres _

theorem frameStep : ∀ p, P (frameStep p s)
  | .search r => by
    have hres := hP.search hs (searchStep_effect r s)
    obtain ⟨r', t, he, h⟩ | ⟨t, he, h⟩ | ⟨code, t, he, h⟩ := frameStep_search_cases r s <;> rw [h] <;> rw [he] at hres
    · exact hP.start hres _
    · exact hP.start hres _
    · exact hP.endFrame hres _
  | .body k => by
    have hres := hP.body hs k
    obtain ⟨k', t, he, h⟩ | ⟨code, t, he, h⟩ := frameStep_body_cases k s <;> rw [h] <;> rw [he] at hres
    · exact hP.start hres _
    · exact hP.endFrame hres _

theorem sequencerStep : P (sequencerStep s) := by
  unfold Machine.sequencerStep
  split
  · exact hs
  · exact hP.tblBuildStep hs _ _ _
  · exact hP.crcCheckStep hs _ _ _
  · exact hP.syncStep hs _
  · exact hP.decodeStep hs _
  · exact hP.frameStep hs _
  · exact hP.finish (hP.decode s hs) _

end SequencerKeeps

/-! ### What no command changes while it runs -/

/-- CMD, the configuration, the latched configuration, `crc_reg` and OVR stand in t as in s. -/
structure ConfigKept (s t : State) : Prop where
  cmd : t.cmd = s.cmd
  ovr : t.ovr = s.ovr
  crcWidth : t.crcWidth = s.crcWidth
  crcPoly : t.crcPoly = s.crcPoly
  chkPayload : t.chkPayload = s.chkPayload
  chkSum : t.chkSum = s.chkSum
  scanMax : t.scanMax = s.scanMax
  sensorNum : t.sensorNum = s.sensorNum
  curWidth : t.curWidth = s.curWidth
  curPoly : t.curPoly = s.curPoly
  crcReg : t.crcReg = s.crcReg

/-- A decode writes the checksum registers and the packet only. -/
theorem decodeBody_eq (s : State) :
    decodeBody s = { recordCrcs s with pkt := (decodeBody s).pkt, pktValid := (decodeBody s).pktValid } := by
  obtain ⟨-, h⟩ | ⟨-, h⟩ := decodeBody_cases s
  · rw [h]; rfl
  · rw [h]

theorem sequencerKeeps_configKept (s : State) : SequencerKeeps (ConfigKept s) where
  progress _ _ _ _ _ _ _ h := { h with }
  result _ _ _ h := { h with }
  tag _ _ _ _ h := { h with }
  entry _ _ _ h := { h with }
  byte k b t h := by rw [storeFbuf_eq]; exact { h with }
  decode t h := by rw [decodeBody_eq]; exact { h with }

theorem sequencerStep_configKept (s : State) : ConfigKept s (sequencerStep s) :=
  (sequencerKeeps_configKept s).sequencerStep ⟨rfl, rfl, rfl, rfl, rfl, rfl, rfl, rfl, rfl, rfl, rfl⟩

end Sys2Proof.Machine
end

section
/-! The invariants of the state that every step keeps (spec/10_state.md R38, R40, R44, R66 to R69). -/

namespace Sys2Proof.Machine

open Sys2Proof

/-! ### The register files -/

theorem memoryInv_reset : MemoryInv State.reset := ⟨Memory.wf_nil, Memory.wf_nil, by simp [State.reset]⟩

theorem MemoryInv.storeFbuf {s : State} (hs : MemoryInv s) (n : Nat) (b : Byte) : MemoryInv (storeFbuf n b s) where
  fbuf_wf := storeFbuf_wf hs.fbuf_wf n b
  table_wf := by rw [storeFbuf_eq]; exact hs.table_wf
  fbuf_range := storeFbuf_range hs.fbuf_range n b

theorem MemoryInv.regStore {s : State} (hs : MemoryInv s) (r : Reg) (v : Word) : MemoryInv (regStore r v s) := by
  cases r with
  | fbuf k => exact (((hs.storeFbuf _ _).storeFbuf _ _).storeFbuf _ _).storeFbuf _ _
  | _ => exact { hs with }

theorem sequencerKeeps_memoryInv : SequencerKeeps MemoryInv where
  progress _ _ _ _ _ _ _ h := { h with }
  result _ _ _ h := { h with }
  tag _ _ _ _ h := { h with }
  entry i v _ h := { h with table_wf := Memory.writeWord_wf h.table_wf i v }
  byte k b _ h := h.storeFbuf k b
  decode t h := by rw [decodeBody_eq]; exact { h with }

/-- Settles O48: a word write and a byte write keep the canonical form, and nothing else writes a register file. -/
theorem stepKeepsMemoryCanonical : Obligations.StepKeepsMemoryCanonical := by
  intro s t hs h
  refine step_keeps memoryInv_reset ?agents ?overrun ?store ?command ?sequencer hs h
  case agents => exact fun _ _ hs => { hs with }
  case overrun => exact fun _ _ hs => { hs with }
  case store => exact fun r v _ _ hs => hs.regStore r v
  case command =>
    intro c w s _ hs
    rw [commandRule_eq]
    exact { hs with }
  case sequencer => exact fun _ hs => sequencerKeeps_memoryInv.sequencerStep hs

/-! ### The packet registers -/

theorem packetInv_reset : PacketInv State.reset := ⟨by simp [State.reset], fun _ => rfl⟩

/-- A decode commits a packet only with a known report code (42_packet_decoder R264, R265). -/
theorem PacketInv.decodeBody {s : State} (hs : PacketInv s) : PacketInv (decodeBody s) := by
  obtain ⟨hok, h⟩ | ⟨-, h⟩ := decodeBody_cases s <;> rw [h]
  · obtain ⟨-, hc⟩ | ⟨-, hknown, -⟩ | ⟨-, -, hc⟩ := bodyCode_cases s
    · rw [hok] at hc; cases hc
    · exact ⟨fun _ => hknown, by simp⟩
    · rw [hok] at hc; cases hc
  · exact { hs with }

theorem sequencerKeeps_packetInv : SequencerKeeps PacketInv where
  progress _ _ _ _ _ _ _ h := { h with }
  result _ _ _ h := { h with }
  tag _ _ _ _ h := { h with }
  entry _ _ _ h := { h with }
  byte k b _ h := by rw [storeFbuf_eq]; exact { h with }
  decode _ h := h.decodeBody

/-- Settles O52: only a successful decode writes the packet registers. -/
theorem stepKeepsPacketKnown : Obligations.StepKeepsPacketKnown := by
  intro s t hs h
  refine step_keeps packetInv_reset ?agents ?overrun ?store ?command ?sequencer hs h
  case agents => exact fun _ _ hs => { hs with }
  case overrun => exact fun _ _ hs => { hs with }
  case store =>
    intro r v s _ hs
    rw [regStore_eq]
    exact { hs with }
  case command =>
    intro c w s _ hs
    rw [commandRule_eq]
    exact { hs with }
  case sequencer => exact fun _ hs => sequencerKeeps_packetInv.sequencerStep hs

/-! ### The CRC engine -/

/-- k shifts of the width-4 working register clear its low k bits, up to four (40_crc_engine R174, R176). -/
theorem testBit_crcShift4_iterate {p8 : Nat} (hp : ∀ i < 4, p8.testBit i = false) (r k : Nat) :
    ∀ i < 4, i < k → ((crcShift4 p8)^[k] r).testBit i = false := by
  induction k with
  | zero => intro i _ hi; exact absurd hi (Nat.not_lt_zero i)
  | succ k ih =>
    intro i h4 hi
    have hshift : ((((crcShift4 p8)^[k] r) <<< 1) &&& 0xFF).testBit i = false := by
      rw [Nat.testBit_and, Nat.testBit_shiftLeft]
      cases i with
      | zero => rfl
      | succ i => simp [ih i (by omega) (by omega)]
    rw [Function.iterate_succ_apply', crcShift4]
    split
    · rw [Nat.testBit_xor, hshift, hp i h4, Bool.xor_self]
    · exact hshift

theorem crcByte4_mod16 (r : Nat) (b : Byte) (P : Nat) : crcByte4 r b P % 16 = 0 := by
  have hp : ∀ i < 4, (P <<< 4).testBit i = false := by
    intro i hi
    simp [Nat.testBit_shiftLeft, Nat.not_le.2 hi]
  apply Nat.eq_of_testBit_eq
  intro i
  rw [show 16 = 2 ^ 4 from rfl, Nat.testBit_mod_two_pow, Nat.zero_testBit]
  by_cases hi : i < 4
  · rw [crcByte4, testBit_crcShift4_iterate hp _ 8 i hi (by omega), Bool.and_false]
  · rw [decide_eq_false hi, Bool.false_and]

/-- The invariant speaks of the latched configuration and `crc_reg` only. -/
theorem EngineInv.congr {s t : State} (hs : EngineInv s) (hW : t.curWidth = s.curWidth) (hP : t.curPoly = s.curPoly)
    (hr : t.crcReg = s.crcReg) : EngineInv t := by
  obtain ⟨legal, wide, narrow⟩ := hs
  constructor <;> rw [hW] <;> [rw [hP]; rw [hr]; rw [hr]] <;> assumption

theorem EngineInv.width_le {s : State} (hs : EngineInv s) : s.curWidth.toNat ≤ 32 := by
  obtain ⟨h, -⟩ := (cfgLegal_iff _ _).1 hs.legal
  omega

theorem EngineInv.poly_lt {s : State} (hs : EngineInv s) : s.curPoly.toNat < 2 ^ s.curWidth.toNat :=
  ((cfgLegal_iff _ _).1 hs.legal).2

/-- A legal width is at most 32, so a value within it fits a register. -/
theorem EngineInv.toNat_ofNat {s : State} (hs : EngineInv s) {x : Nat} (hx : x < 2 ^ s.curWidth.toNat) :
    (BitVec.ofNat 32 x).toNat = x := by
  rw [BitVec.toNat_ofNat]
  exact Nat.mod_eq_of_lt (lt_of_lt_of_le hx (Nat.pow_le_pow_right (by decide) hs.width_le))

/-- A message byte leaves `crc_reg` within its width (R68, R176). -/
theorem engineInv_crcRegBit {s : State} (hs : EngineInv s) (b : Byte) :
    EngineInv { s with crcReg := crcRegBit s b } where
  legal := hs.legal
  wide hW := by
    have hlt := crcByteWide_lt hs.poly_lt (s.crcReg.toNat &&& mask s.curWidth.toNat) b
    show (crcRegBit s b).toNat < _
    rw [crcRegBit, if_neg hW, hs.toNat_ofNat hlt]
    exact hlt
  narrow hW := by
    have hP : s.curPoly.toNat < 16 := by simpa [show s.curWidth = 4 from hW] using hs.poly_lt
    have hlt := crcByte4_lt hP (s.crcReg.extractLsb' 0 8).toNat b
    show (crcRegBit s b).toNat < 256 ∧ (crcRegBit s b).toNat % 16 = 0
    rw [crcRegBit, if_pos hW, BitVec.toNat_ofNat, Nat.mod_eq_of_lt (by omega)]
    exact ⟨hlt, crcByte4_mod16 _ b _⟩

theorem engineInv_crcRegTbl {s : State} (hs : EngineInv s) (hW : s.curWidth ≠ 4) (b : Byte) :
    EngineInv { s with crcReg := crcRegTbl s b } where
  legal := hs.legal
  wide _ := by
    have hlt := crcTblStep_lt (s.crcReg.toNat &&& mask s.curWidth.toNat) b s.curWidth.toNat
      (fun i => (tableEntry s i).toNat)
    show (crcRegTbl s b).toNat < _
    rw [crcRegTbl, hs.toNat_ofNat hlt]
    exact hlt
  narrow h := absurd h hW

/-- A legal configuration is latched with `crc_reg` 0 (40_crc_engine R178). -/
theorem engineInv_latched {s : State} (h : cfgLegal s.crcWidth.toNat s.crcPoly.toNat = true) :
    EngineInv { s with curWidth := s.crcWidth, curPoly := s.crcPoly, crcReg := 0 } where
  legal := h
  wide _ := Nat.two_pow_pos _
  narrow _ := ⟨Nat.succ_pos 255, rfl⟩

/-- Only CRC_INIT and the two updates write the latched configuration or `crc_reg`. -/
theorem EngineInv.commandRule {s : State} (hs : EngineInv s) (c : Command) : EngineInv (commandRule c s) := by
  cases c with
  | crcInit =>
    obtain ⟨hlegal, h⟩ | h := ruleCrcInit_cases s <;> rw [Machine.commandRule, h]
    · exact (engineInv_latched hlegal).congr rfl rfl rfl
    · exact hs.congr rfl rfl rfl
  | crcUpdBit b => exact (engineInv_crcRegBit hs b).congr rfl rfl rfl
  | crcUpdTbl b =>
    obtain ⟨hW, h⟩ | ⟨code, h⟩ := ruleCrcUpdTbl_cases b s <;> rw [Machine.commandRule, h]
    · exact (engineInv_crcRegTbl hs hW b).congr rfl rfl rfl
    · exact hs.congr rfl rfl rfl
  | tblBuild => obtain ⟨-, h⟩ | h := ruleTblBuild_cases s <;> rw [Machine.commandRule, h] <;> exact hs.congr rfl rfl rfl
  | crcCheck =>
    obtain ⟨-, -, h⟩ | h := ruleCrcCheck_cases s <;> rw [Machine.commandRule, h] <;> exact hs.congr rfl rfl rfl
  | _ => exact hs.congr rfl rfl rfl

theorem engineInv_reset : EngineInv State.reset := ⟨by decide, by decide, by decide⟩

/-- Settles O49: CRC_INIT latches a legal configuration, an update leaves `crc_reg` within its width, and nothing else
touches them. -/
theorem stepKeepsEngine : Obligations.StepKeepsEngine := by
  intro s t hs h
  refine step_keeps engineInv_reset ?agents ?overrun ?store ?command ?sequencer hs h
  case agents => exact fun _ _ hs => hs.congr rfl rfl rfl
  case overrun => exact fun _ _ hs => hs.congr rfl rfl rfl
  case store =>
    intro r v s _ hs
    rw [regStore_eq]
    exact hs.congr rfl rfl rfl
  case command => exact fun c w s _ hs => (EngineInv.congr hs rfl rfl rfl : EngineInv (accept w s)).commandRule c
  case sequencer =>
    intro s hs
    have hk := sequencerStep_configKept s
    exact hs.congr hk.curWidth hk.curPoly hk.crcReg

end Sys2Proof.Machine
end

section
/-! The running command's progress (spec/10_state.md R38, R44; spec/41_frame_sync.md R232, R236;
spec/42_packet_decoder.md R268). -/

namespace Sys2Proof.Machine

open Sys2Proof

/-! ### The invariant of an IDLE and of a running state -/

/-- While IDLE only HDR_INFO is bound. -/
theorem SeqInv.of_idle {s : State} (h : s.seq = .idle) (hhdr : s.hdr.fails.toNat ≤ s.hdr.reads.toNat) : SeqInv s where
  running c hc := by rw [h] at hc; cases hc
  fails_le_reads := hhdr

theorem SeqInv.of_finish (code : ErrCode) {s : State} (hhdr : s.hdr.fails.toNat ≤ s.hdr.reads.toNat) :
    SeqInv (finish code s) := .of_idle rfl hhdr

theorem SeqInv.of_endFrame (code : ErrCode) {s : State} (hhdr : s.hdr.fails.toNat ≤ s.hdr.reads.toNat) :
    SeqInv (endFrame code s) := .of_idle rfl hhdr

theorem SeqInv.of_run {s : State} {c : Running} (h : s.seq = .run c) (hdone : s.done = false) (herr : s.err = .ok)
    (hc : runningSane s c) (hhdr : s.hdr.fails.toNat ≤ s.hdr.reads.toNat) : SeqInv s where
  running d hd := by
    obtain rfl : c = d := SeqState.run.inj (h.symm.trans hd)
    exact ⟨hdone, herr, hc⟩
  fails_le_reads := hhdr

/-- A command's progress is bound by the flags that commands clear, `sync_state` and SCAN_MAX. -/
theorem runningSane_congr {s t : State} {c : Running} (h : runningSane s c) (hvalid : t.tblValid = s.tblValid)
    (hpass : t.chkPass = s.chkPass) (hsync : t.syncState = s.syncState) (hmax : t.scanMax = s.scanMax) :
    runningSane t c := by
  unfold runningSane searchSane at *
  rw [hvalid, hpass, hsync, hmax]
  exact h

theorem SeqInv.congr {s t : State} (hs : SeqInv s) (hseq : t.seq = s.seq) (hdone : t.done = s.done)
    (herr : t.err = s.err) (hhdr : t.hdr = s.hdr) (hvalid : t.tblValid = s.tblValid) (hpass : t.chkPass = s.chkPass)
    (hsync : t.syncState = s.syncState) (hmax : t.scanMax = s.scanMax) : SeqInv t where
  running c hc := by
    obtain ⟨hd, he, hsane⟩ := hs.running c (hseq ▸ hc)
    exact ⟨hdone.trans hd, herr.trans he, runningSane_congr hsane hvalid hpass hsync hmax⟩
  fails_le_reads := hhdr ▸ hs.fails_le_reads

/-! ### Acceptance -/

/-- The number CRC_CHECK divides fits the payload's 32 bits and the checksum's n (40_crc_engine R200). -/
theorem ldStart_lt {payload chk n : Nat} (hp : payload < 2 ^ 32) (hc : chk < 2 ^ n) :
    ldStart payload chk n < 2 ^ (n + 32) := by
  refine Nat.or_lt_two_pow ?_ (lt_of_lt_of_le hc (Nat.pow_le_pow_right (by decide) (Nat.le_add_right n 32)))
  rw [Nat.shiftLeft_eq, Nat.add_comm n 32, Nat.pow_add]
  exact Nat.mul_lt_mul_of_pos_right hp (Nat.two_pow_pos n)

theorem searchSane_searchBegin {s : State} (h : s.syncState = .searching) : searchSane s (searchBegin s) :=
  ⟨h, rfl, Nat.zero_le _, Nat.le_refl 0⟩

/-- An accepted command finishes, or begins within its bounds. -/
theorem seqInv_commandRule (c : Command) (w : Word) {s : State} (hhdr : s.hdr.fails.toNat ≤ s.hdr.reads.toNat) :
    SeqInv (commandRule c (accept w s)) := by
  cases c with
  | nop | crcUpdBit | illegal => exact .of_finish _ hhdr
  | crcInit => obtain ⟨-, h⟩ | h := ruleCrcInit_cases (accept w s) <;> rw [commandRule, h] <;> exact .of_finish _ hhdr
  | crcUpdTbl b =>
    obtain ⟨-, h⟩ | ⟨code, h⟩ := ruleCrcUpdTbl_cases b (accept w s) <;> rw [commandRule, h] <;> exact .of_finish _ hhdr
  | tblBuild =>
    obtain ⟨hlegal, h⟩ | h := ruleTblBuild_cases (accept w s) <;> rw [commandRule, h]
    · exact .of_run rfl rfl rfl ⟨hlegal, by decide, rfl⟩ hhdr
    · exact .of_finish _ hhdr
  | crcCheck =>
    obtain ⟨hlegal, hchk, h⟩ | h := ruleCrcCheck_cases (accept w s) <;> rw [commandRule, h]
    · exact .of_run rfl rfl rfl ⟨hlegal, ldStart_lt (accept w s).chkPayload.isLt hchk, rfl⟩ hhdr
    · exact .of_finish _ hhdr
  | sync => exact .of_run (c := .sync _) rfl rfl rfl (searchSane_searchBegin rfl) hhdr
  | frame => exact .of_run (c := .frame (.search _)) rfl rfl rfl (searchSane_searchBegin rfl) hhdr
  | decode => exact .of_run (c := .decode 0) rfl rfl rfl (Nat.succ_pos 50) hhdr
  | decodeBuf => exact .of_run (c := .decodeBuf) rfl rfl rfl trivial hhdr

/-! ### A turn of the sequencer -/

/-- A division step shortens a working value of more than n bits, and so keeps any bound (40_crc_engine R202). -/
theorem dividedOnce_lt {n P w k : Nat} (hP : P < 2 ^ n) (hw : w < 2 ^ k) : dividedOnce n P w < 2 ^ k := by
  unfold dividedOnce
  split
  · rename_i hn
    have hD : bitLen (divisor n P .generator) = n + 1 := bitLen_generator hP
    have hlong : n < bitLen w := by
      rw [← Nat.pow_lt_pow_iff_right (a := 2) (by decide)]
      exact lt_of_le_of_lt hn (bitLen_lt w)
    obtain ⟨j, hj⟩ : ∃ j, bitLen w = j + 1 := ⟨bitLen w - 1, by omega⟩
    have hshort : bitLen w ≤ k := bitLen_le hw
    calc ldStep (divisor n P .generator) w < 2 ^ j := ldStep_lt (by omega) (by omega) hj
      _ ≤ 2 ^ k := Nat.pow_le_pow_right (by decide) (by omega)
  · exact hw

/-- FAILS and READS of a sane search fit their fields, in order (41_frame_sync R236). -/
theorem searchSane_counts {s : State} {r : SyncRun} (h : searchSane s r) :
    (BitVec.ofNat 8 r.fails).toNat ≤ (BitVec.ofNat 8 r.reads).toNat := by
  obtain ⟨-, hbudget, hreads, hpos⟩ := h
  have hmax := s.scanMax.isLt
  have hfails : r.fails ≤ r.reads := by
    cases hp : r.pos <;> rw [hp] at hpos
    · exact hpos
    · exact Nat.le_of_lt hpos
  rw [BitVec.toNat_ofNat, BitVec.toNat_ofNat, Nat.mod_eq_of_lt (by omega), Nat.mod_eq_of_lt (by omega)]
  exact hfails

/-- A search that goes on has taken at most an answer. -/
theorem searchStep_searching {r r' : SyncRun} {s t : State} (h : searchStep r s = .searching r' t) :
    keepsSane r r' ∧ ∃ l, t = { s with port := l } := by
  generalize hres : searchStep r s = res at h
  cases hres ▸ searchStep_effect r s with
  | searching l q hq =>
    obtain ⟨rfl, rfl⟩ := SearchResult.searching.inj h
    exact ⟨hq, l, rfl⟩
  | timeout l q hq => cases h
  | found l b => cases h

/-- A sane search ends with FAILS and READS in order, and with OK only when it is SYNCHRONIZED (R232, R236). -/
theorem searchStep_ended {r : SyncRun} {s t : State} {code : ErrCode} (h : searchStep r s = .ended code t)
    (hr : searchSane s r) :
    t.hdr.fails.toNat ≤ t.hdr.reads.toNat ∧ t.done = s.done ∧ t.err = s.err ∧
      (code = .ok → t.syncState = .synchronized) := by
  generalize hres : searchStep r s = res at h
  cases hres ▸ searchStep_effect r s with
  | searching l q hq => cases h
  | timeout l q hq =>
    obtain ⟨rfl, rfl⟩ := SearchResult.ended.inj h
    exact ⟨searchSane_counts (hq s hr), rfl, rfl, fun hc => nomatch hc⟩
  | found l b =>
    obtain ⟨rfl, rfl⟩ := SearchResult.ended.inj h
    exact ⟨searchSane_counts hr, rfl, rfl, fun _ => rfl⟩

/-- A body step leaves the header, the completion flags and `sync_state`. -/
theorem bodyStep_state (k : Nat) (s : State) :
    (bodyStep k s).state.hdr = s.hdr ∧ (bodyStep k s).state.done = s.done ∧ (bodyStep k s).state.err = s.err ∧
      (bodyStep k s).state.syncState = s.syncState := by
  obtain ⟨-, h⟩ | ⟨rest, -, h⟩ | ⟨b, rest, -, -, h⟩ | ⟨b, rest, -, -, h⟩ := bodyStep_cases k s <;> rw [h]
  · exact ⟨rfl, rfl, rfl, rfl⟩
  · exact ⟨rfl, rfl, rfl, rfl⟩
  · rw [storeFbuf_eq]
    exact ⟨rfl, rfl, rfl, rfl⟩
  · rw [storeFbuf_eq, decodeBody_eq]
    exact ⟨rfl, rfl, rfl, rfl⟩

/-- A body that goes on is at a byte of the body (42_packet_decoder R268). -/
theorem bodyStep_reading {k k' : Nat} {s t : State} (h : bodyStep k s = .reading k' t)
    (hk : k < Config.fscore.bodyLen) : k' < Config.fscore.bodyLen := by
  obtain ⟨-, e⟩ | ⟨rest, -, e⟩ | ⟨b, rest, -, hlt, e⟩ | ⟨b, rest, -, -, e⟩ := bodyStep_cases k s <;>
    rw [e] at h <;> cases h
  · exact hk
  · exact hlt

section Running

variable {s : State} (hdone : s.done = false) (herr : s.err = .ok) (hhdr : s.hdr.fails.toNat ≤ s.hdr.reads.toNat)
include hdone herr hhdr

theorem seqInv_tblBuildStep {W : BitVec 6} {P : Word} {i : Nat} (hc : runningSane s (.tblBuild W P i)) :
    SeqInv (tblBuildStep W P i s) := by
  obtain ⟨hlegal, -, hvalid⟩ := hc
  obtain ⟨hi, h⟩ | ⟨-, h⟩ := tblBuildStep_cases W P i s <;> rw [h]
  · exact .of_run rfl hdone herr ⟨hlegal, hi, hvalid⟩ hhdr
  · exact .of_finish _ hhdr

theorem seqInv_crcCheckStep {W : BitVec 6} {P : Word} {w : Nat} (hc : runningSane s (.crcCheck W P w)) :
    SeqInv (crcCheckStep W P w s) := by
  obtain ⟨hlegal, hw, hpass⟩ := hc
  obtain ⟨-, h⟩ | ⟨-, h⟩ := crcCheckStep_cases W P w s <;> rw [h]
  · exact .of_run rfl hdone herr ⟨hlegal, dividedOnce_lt ((cfgLegal_iff _ _).1 hlegal).2 hw, hpass⟩ hhdr
  · exact .of_finish _ hhdr

theorem seqInv_syncStep {r : SyncRun} (hr : searchSane s r) : SeqInv (syncStep r s) := by
  obtain ⟨r', t, he, h⟩ | ⟨code, t, he, h⟩ := syncStep_cases r s <;> rw [h]
  · obtain ⟨hr', l, rfl⟩ := searchStep_searching he
    exact .of_run (c := .sync r') rfl hdone herr (hr' s hr) hhdr
  · obtain ⟨hhdr', -⟩ := searchStep_ended he hr
    exact .of_finish _ hhdr'

theorem seqInv_decodeStep {k : Nat} (hk : k < Config.fscore.bodyLen) : SeqInv (decodeStep k s) := by
  obtain ⟨ehdr, edone, eerr, -⟩ := bodyStep_state k s
  obtain ⟨k', t, he, h⟩ | ⟨code, t, he, h⟩ := decodeStep_cases k s <;> rw [h] <;> rw [he] at ehdr edone eerr
  · exact .of_run (c := .decode k') rfl (edone.trans hdone) (eerr.trans herr) (bodyStep_reading he hk)
      (ehdr ▸ hhdr : t.hdr.fails.toNat ≤ t.hdr.reads.toNat)
  · exact .of_endFrame _ (ehdr ▸ hhdr : t.hdr.fails.toNat ≤ t.hdr.reads.toNat)

theorem seqInv_frameStep {p : FramePhase} (hp : runningSane s (.frame p)) : SeqInv (frameStep p s) := by
  cases p with
  | search r =>
    have hr : searchSane s r := hp
    obtain ⟨r', t, he, h⟩ | ⟨t, he, h⟩ | ⟨code, t, he, h⟩ := frameStep_search_cases r s <;> rw [h]
    · obtain ⟨hr', l, rfl⟩ := searchStep_searching he
      exact .of_run (c := .frame (.search r')) rfl hdone herr (hr' s hr) hhdr
    · obtain ⟨hhdr', edone, eerr, hsync⟩ := searchStep_ended he hr
      exact .of_run (c := .frame (.body 0)) rfl (edone.trans hdone) (eerr.trans herr) ⟨Nat.succ_pos 50, hsync rfl⟩ hhdr'
    · obtain ⟨hhdr', -⟩ := searchStep_ended he hr
      exact .of_endFrame _ hhdr'
  | body k =>
    obtain ⟨hk, hsync⟩ := hp
    obtain ⟨ehdr, edone, eerr, esync⟩ := bodyStep_state k s
    obtain ⟨k', t, he, h⟩ | ⟨code, t, he, h⟩ := frameStep_body_cases k s <;> rw [h] <;> rw [he] at ehdr edone eerr esync
    · exact .of_run (c := .frame (.body k')) rfl (edone.trans hdone) (eerr.trans herr)
        ⟨bodyStep_reading he hk, esync.trans hsync⟩ (ehdr ▸ hhdr : t.hdr.fails.toNat ≤ t.hdr.reads.toNat)
    · exact .of_endFrame _ (ehdr ▸ hhdr : t.hdr.fails.toNat ≤ t.hdr.reads.toNat)

end Running

theorem SeqInv.sequencerStep {s : State} (hs : SeqInv s) : SeqInv (sequencerStep s) := by
  have hhdr := hs.fails_le_reads
  cases hseq : s.seq with
  | idle => rwa [sequencerStep_idle hseq]
  | run c =>
    obtain ⟨hdone, herr, hc⟩ := hs.running c hseq
    simp only [Machine.sequencerStep, hseq]
    cases c with
    | tblBuild W P i => exact seqInv_tblBuildStep hdone herr hhdr hc
    | crcCheck W P w => exact seqInv_crcCheckStep hdone herr hhdr hc
    | sync r => exact seqInv_syncStep hdone herr hhdr hc
    | decode k => exact seqInv_decodeStep hdone herr hhdr hc
    | frame p => exact seqInv_frameStep hdone herr hhdr hc
    | decodeBuf =>
      refine .of_finish _ ?_
      rw [decodeBody_eq]
      exact hhdr

theorem seqInv_reset : SeqInv State.reset := .of_idle rfl (Nat.le_refl 0)

/-- Settles O51: a command is accepted with its flags cleared and its counters at their start, each of its steps keeps
them in their bounds, and while it runs nothing else writes what they are bound by. -/
theorem stepKeepsSequencerSane : Obligations.StepKeepsSequencerSane := by
  intro s t hs h
  refine step_keeps seqInv_reset ?agents ?overrun ?store ?command ?sequencer hs h
  case agents => exact fun _ _ hs => hs.congr rfl rfl rfl rfl rfl rfl rfl rfl
  case overrun => exact fun _ _ hs => hs.congr rfl rfl rfl rfl rfl rfl rfl rfl
  case store =>
    intro r v s hidle hs
    rw [regStore_eq]
    exact .of_idle hidle hs.fails_le_reads
  case command => exact fun c w s _ hs => seqInv_commandRule c w hs.fails_le_reads
  case sequencer => exact fun _ hs => hs.sequencerStep

end Sys2Proof.Machine
end

section
/-! What host events the decoder reads as a CRC_INIT or a STATUS write, and the rules of the whole machine that rest on
them (spec/10_state.md R33, R40, R41, R69, R71). -/

namespace Sys2Proof.Machine

open Sys2Proof

/-! ### From an instruction back to its encoded form -/

/-- A command word is put together from its fields (30_encoding R140). -/
theorem append_fields (w : Word) : rsvField w ++ immField w ++ opcField w = w := by
  apply BitVec.eq_of_getLsbD_eq
  intro i hi
  simp only [rsvField, immField, opcField, BitVec.getLsbD_append, BitVec.getLsbD_extractLsb']
  interval_cases i <;> simp

/-- An opcode without an operand has IMM8 = 0 (R142). -/
theorem encode_commandOf {op : Opcode} {b : Byte} {c : Command} (h : commandOf op b = some c) :
    encode c.toInstr = .cmdw (commandWord op b) := by
  cases op with
  | crcUpdBit | crcUpdTbl => cases h; rfl
  | _ =>
    simp only [commandOf] at h
    split at h
    · rename_i hb
      cases h
      rw [hb]; rfl
    · cases h

theorem encode_decodeCommand (w : Word) : encode (decodeCommand w).toInstr = .cmdw w := by
  unfold decodeCommand
  split
  · rfl
  · rename_i hrsv
    split
    · rfl
    · rename_i op hop
      cases hc : commandOf op (immField w) with
      | none => rfl
      | some c =>
        have hw : commandWord op (immField w) = w := by
          rw [commandWord, opcodeOf_upd _ _ hop, ← not_not.1 hrsv]
          exact append_fields w
        rw [Option.getD_some, encode_commandOf hc, hw]

/-- The encoder has the offset of each fixed register. -/
theorem encode_mmioRows : ∀ p ∈ mmioRows, ∀ a, encode (p.2 a) = mmioCode p.1 a := by
  simp [mmioRows, encode]

theorem encode_decodeOffset {o : Offset} (ho : o.toNat % 4 = 0) (a : Access) :
    encode (decodeOffset o a) = mmioCode o a := by
  have hlt := o.isLt
  unfold decodeOffset
  split
  · rename_i row hrow
    obtain ⟨l₁, l₂, hl, -⟩ := List.lookup_eq_some_iff.1 hrow
    exact encode_mmioRows (o, row) (by rw [hl]; simp) a
  · split
    · have hoff : (0x100 : Offset) + 4 * (o.extractLsb' 2 4).setWidth 12 = o := by
        apply BitVec.eq_of_toNat_eq
        simp [BitVec.toNat_add, BitVec.toNat_mul, BitVec.extractLsb'_toNat, Nat.shiftRight_eq_div_pow]
        omega
      rw [encode, hoff]
    · split
      · have hoff : (0x400 : Offset) + 4 * (o.extractLsb' 2 8).setWidth 12 = o := by
          apply BitVec.eq_of_toNat_eq
          simp [BitVec.toNat_add, BitVec.toNat_mul, BitVec.extractLsb'_toNat, Nat.shiftRight_eq_div_pow]
          omega
        rw [encode, hoff]
      · rfl

/-- An access or a command word that decodes is the encoded form of its instruction. -/
theorem encode_decode {c : Code} {i : Instr} (h : decode c = .ok i) : encode i = c := by
  cases c with
  | cmdw w =>
    cases h
    exact encode_decodeCommand w
  | mmio a =>
    obtain ⟨o, size, access⟩ := a
    simp only [decode] at h
    split at h
    · cases h
    · split at h
      · cases h
      · rename_i hsize halign
        cases h
        rw [encode_decodeOffset (not_not.1 halign), not_not.1 hsize]
        rfl

/-! ### The events behind an effect -/

/-- CRC_INIT has two encoded forms: its command word, and a CMD write of that word (log 10). -/
theorem code_of_issues_crcInit {c : Code} {i : Instr} (hd : decode c = .ok i) (hi : issues i .crcInit) :
    c = .cmdw 1 ∨ c = mmioCode 0 (.write 1) := by
  obtain rfl | ⟨w, rfl, hw⟩ := hi
  · exact .inl (encode_decode hd).symm
  · have hone : Code.cmdw 1 = .cmdw w := by
      rw [← encode_decodeCommand w, hw]; rfl
    obtain rfl : 1 = w := Code.cmdw.inj hone
    exact .inr (encode_decode hd).symm

/-- Only an accepted CRC_INIT writes the latched configuration (40_crc_engine R178). -/
theorem commandRule_latches (c : Command) (s : State) :
    ((commandRule c s).curWidth = s.curWidth ∧ (commandRule c s).curPoly = s.curPoly) ∨
      (c = .crcInit ∧ cfgLegal s.crcWidth.toNat s.crcPoly.toNat = true ∧
        (commandRule c s).curWidth = s.crcWidth ∧ (commandRule c s).curPoly = s.crcPoly ∧
        (commandRule c s).crcReg = 0) := by
  cases c with
  | crcInit =>
    obtain ⟨hlegal, h⟩ | h := ruleCrcInit_cases s <;> rw [commandRule, h]
    · exact .inr ⟨rfl, hlegal, rfl, rfl, rfl⟩
    · exact .inl ⟨rfl, rfl⟩
  | crcUpdTbl b =>
    obtain ⟨-, h⟩ | ⟨code, h⟩ := ruleCrcUpdTbl_cases b s <;> rw [commandRule, h] <;> exact .inl ⟨rfl, rfl⟩
  | tblBuild => obtain ⟨-, h⟩ | h := ruleTblBuild_cases s <;> rw [commandRule, h] <;> exact .inl ⟨rfl, rfl⟩
  | crcCheck => obtain ⟨-, -, h⟩ | h := ruleCrcCheck_cases s <;> rw [commandRule, h] <;> exact .inl ⟨rfl, rfl⟩
  | _ => exact .inl ⟨rfl, rfl⟩

/-- An instruction leaves the latched configuration, unless it is a CRC_INIT that latches a legal one. -/
theorem ExecEffect.latches {i : Instr} {s t : State} (h : ExecEffect i s t) :
    (t.curWidth = s.curWidth ∧ t.curPoly = s.curPoly) ∨
      (issues i .crcInit ∧ cfgLegal s.crcWidth.toNat s.crcPoly.toNat = true ∧ t.curWidth = s.crcWidth ∧
        t.curPoly = s.crcPoly ∧ t.crcReg = 0) := by
  cases h with
  | agents g => exact .inl ⟨rfl, rfl⟩
  | refused g hbusy => exact .inl ⟨rfl, rfl⟩
  | status g v hi => rw [statusWrite_eq]; exact .inl ⟨rfl, rfl⟩
  | store g r v hidle => rw [regStore_eq]; exact .inl ⟨rfl, rfl⟩
  | command g c w hidle hc =>
    obtain hkept | ⟨rfl, hlatched⟩ := commandRule_latches c (accept w (withAgents g s))
    · exact .inl hkept
    · exact .inr ⟨hc, hlatched⟩

/-- Settles O55: of the things a step can do, only the rule of an accepted CRC_INIT writes the latched configuration. -/
theorem onlyCrcInitLatches : Obligations.OnlyCrcInitLatches := by
  intro s t hnoreset h hchanged
  have unchanged : ¬ (t.curWidth = s.curWidth ∧ t.curPoly = s.curPoly) := by
    rintro ⟨hW, hP⟩
    exact hchanged.elim (· hW) (· hP)
  cases step_effect h with
  | host c rest i g ha hd he =>
    obtain hkept | ⟨hi, hlatched⟩ := he.latches
    · exact absurd hkept unchanged
    · refine ⟨⟨rest, ?_⟩, hlatched⟩
      obtain rfl | rfl := code_of_issues_crcInit hd hi
      · exact .inl ha
      · exact .inr ha
  | agents g => exact absurd ⟨rfl, rfl⟩ unchanged
  | sequencer g =>
    have hk := sequencerStep_configKept (withAgents g s)
    exact absurd ⟨hk.curWidth, hk.curPoly⟩ unchanged
  | reset g b rest ha => exact absurd ha (hnoreset b rest)

/-- While BUSY no instruction writes the configuration: a write is refused, and a command too (R71). -/
theorem ExecEffect.configKept_of_busy {i : Instr} {s t : State} (h : ExecEffect i s t) (hbusy : s.busy = true) :
    ConfigKept { s with ovr := t.ovr } t := by
  have hnotidle : s.seq ≠ .idle := fun hidle => by
    rw [(busy_eq_false_iff s).2 hidle] at hbusy
    cases hbusy
  cases h with
  | agents g => constructor <;> rfl
  | refused g hbusy => constructor <;> rfl
  | status g v hi => rw [statusWrite_eq]; constructor <;> rfl
  | store g r v hidle => exact absurd hidle hnotidle
  | command g c w hidle hc => exact absurd hidle hnotidle

/-- Settles O54: while BUSY the host's writes and commands are refused, and the sequencer writes none of these. -/
theorem busyFreezesConfiguration : Obligations.BusyFreezesConfiguration := by
  intro s t hbusy hnoreset h
  have hk : ConfigKept { s with ovr := t.ovr } t := by
    cases step_effect h with
    | host c rest i g ha hd he => exact { he.configKept_of_busy hbusy with }
    | agents g => constructor <;> rfl
    | sequencer g => exact { sequencerStep_configKept (withAgents g s) with ovr := rfl }
    | reset g b rest ha => exact absurd ha (hnoreset b rest)
  exact ⟨hk.cmd, hk.crcWidth, hk.crcPoly, hk.chkPayload, hk.chkSum, hk.scanMax, hk.sensorNum, hk.curWidth, hk.curPoly,
    hk.crcReg⟩

/-! ### The sticky flags -/

theorem sequencerKeeps_pktValid : SequencerKeeps fun s => s.pktValid = true where
  progress _ _ _ _ _ _ _ h := h
  result _ _ _ h := h
  tag _ _ _ _ h := h
  entry _ _ _ h := h
  byte k b _ h := by rw [storeFbuf_eq]; exact h
  decode t h := by
    obtain ⟨-, hd⟩ | ⟨-, hd⟩ := decodeBody_cases t <;> rw [hd]
    · rfl
    · exact h

/-- An instruction leaves PKT_VALID, and keeps OVR set unless it is a STATUS write (R40, R41). -/
theorem ExecEffect.flags {i : Instr} {s t : State} (h : ExecEffect i s t) :
    t.pktValid = s.pktValid ∧
      ((s.ovr = true → t.ovr = true) ∨ ∃ v, i = .mmioStatus (.write v) ∧ t.ovr = (s.ovr && !v.getLsbD 4)) := by
  cases h with
  | agents g => exact ⟨rfl, .inl id⟩
  | refused g hbusy => exact ⟨rfl, .inl fun _ => rfl⟩
  | status g v hi => rw [statusWrite_eq]; exact ⟨rfl, .inr ⟨v, hi, rfl⟩⟩
  | store g r v hidle => rw [regStore_eq]; exact ⟨rfl, .inl id⟩
  | command g c w hidle hc => rw [commandRule_eq]; exact ⟨rfl, .inl id⟩

/-- Settles O56: a decode's commit alone writes PKT_VALID, and sets it; OVR is cleared by a STATUS write alone. -/
theorem stickyFlags : Obligations.StickyFlags := by
  intro s t hnoreset h
  have not_cleared : ∀ {p : Prop}, (s.ovr = true → t.ovr = true) → s.ovr = true → t.ovr = false → p := by
    intro p hkept hset hclear
    rw [hkept hset] at hclear
    cases hclear
  cases step_effect h with
  | host c rest i g ha hd he =>
    obtain ⟨hvalid, hkept | ⟨v, rfl, hovr⟩⟩ := he.flags
    · exact ⟨fun hset => hvalid.trans hset, not_cleared hkept⟩
    · obtain rfl : mmioCode 0x004 (.write v) = c := encode_decode hd
      refine ⟨fun hset => hvalid.trans hset, fun hset hclear => ⟨v, rest, ha, ?_⟩⟩
      simpa [hovr, hset] using hclear
  | agents g => exact ⟨id, not_cleared id⟩
  | sequencer g =>
    have hovr := (sequencerStep_configKept (withAgents g s)).ovr
    exact ⟨sequencerKeeps_pktValid.sequencerStep (s := withAgents g s), not_cleared fun hset => hovr.trans hset⟩
  | reset g b rest ha => exact absurd ha (hnoreset b rest)

end Sys2Proof.Machine
end

section
/-! The registers: their offsets, what a read answers, what a write does, and their values (spec/10_state.md R33 to R59,
R71 to R73). -/

namespace Sys2Proof.Machine

open Sys2Proof

/-! ### Offsets -/

/-- The encoder has the offset of each register. -/
theorem encode_regInstr (r : Reg) (a : Access) : encode (r.instr a) = mmioCode r.offset a := by
  cases r with
  | pktDiff j => fin_cases j <;> rfl
  | pktSum j => fin_cases j <;> rfl
  | fbuf k => fin_cases k <;> rfl
  | table i =>
    have hoff : (0x400 : Offset) + 4 * i.setWidth 12 = BitVec.ofNat 12 (0x400 + 4 * i.toNat) := by
      apply BitVec.eq_of_toNat_eq
      simp [BitVec.toNat_add, BitVec.toNat_mul]
    simp only [Reg.instr, encode, Reg.offset, hoff]
  | _ => rfl

/-- A register's instruction decodes from its encoded form. -/
theorem roundTrip_regInstr (r : Reg) (a : Access) : Laws.RoundTrip.Statement (r.instr a) := by
  cases r with
  | pktDiff j => fin_cases j <;> (intro _; with_unfolding_all rfl)
  | pktSum j => fin_cases j <;> (intro _; with_unfolding_all rfl)
  | fbuf k => exact Laws.RoundTrip.mmioFbuf _ a
  | table i => exact Laws.RoundTrip.mmioTable i a
  | _ => intro _; with_unfolding_all rfl

theorem wellFormed_regInstr (r : Reg) (a : Access) : (r.instr a).wellFormed = true := by
  cases r with
  | pktDiff j => fin_cases j <;> rfl
  | pktSum j => fin_cases j <;> rfl
  | fbuf k => fin_cases k <;> rfl
  | _ => rfl

/-- Settles O8: a register's instruction is encoded at its offset, and decodes from there. -/
theorem registerMap : Obligations.RegisterMap := by
  intro r a
  rw [← encode_regInstr]
  exact roundTrip_regInstr r a (wellFormed_regInstr r a)

/-! ### Writes -/

/-- Settles O38: a register of class RO answers a write and does nothing else. -/
theorem readOnlyWritesHaveNoEffect : Obligations.ReadOnlyWritesHaveNoEffect :=
  fun _ s v hro => exec_write_readOnly hro v s

/-- While BUSY a command is dropped and recorded by OVR (R71). -/
theorem exec_command_busy {s : State} (hbusy : s.busy = true) (c : Command) :
    exec c.toInstr s = .next { s with ovr := true, bus := .done } := by
  obtain ⟨w, hw⟩ := exec_command c
  rw [hw, issue_busy hbusy]
  rfl

/-- While BUSY a write of CMD, a configuration register or FBUF is dropped and recorded by OVR (R71). -/
theorem exec_write_busy {s : State} (hbusy : s.busy = true) {r : Reg} (hro : r.readOnly = false) (hstatus : r ≠ .status)
    (v : Word) : exec (r.instr (.write v)) s = .next { s with ovr := true, bus := .done } := by
  by_cases hcmd : r = .cmd
  · subst hcmd
    exact (exec_write_cmd v s).trans (exec_command_busy hbusy _)
  · rw [exec_write_config hro hcmd hstatus, accessRW_write_busy hbusy]
    rfl

theorem exec_write_status_eq (v : Word) (s : State) :
    exec (.mmioStatus (.write v)) s = .next { s with ovr := s.ovr && !v.getLsbD 4, bus := .done } := by
  rw [exec_write_status, statusWrite_eq]
  rfl

/-- Settles O11, by the class of the register written to. -/
theorem writesWhileBusy : Obligations.WritesWhileBusy := by
  intro s v
  refine ⟨fun hbusy => ⟨exec_command_busy hbusy, ?config, exec_write_status_eq v s⟩, ?readOnly, ?reserved⟩
  case config => exact fun r hro hstatus => exec_write_busy hbusy hro hstatus v
  case readOnly => exact fun r hro => exec_write_readOnly hro v s
  case reserved => exact fun o _ => rfl

/-- While IDLE a write of a configuration register stores. -/
theorem exec_write_idle {s : State} (hidle : s.seq = .idle) {r : Reg} (hro : r.readOnly = false) (hcmd : r ≠ .cmd)
    (hstatus : r ≠ .status) (v : Word) : exec (r.instr (.write v)) s = .next (regStore r v (answer .done s)) := by
  rw [exec_write_config hro hcmd hstatus, accessRW_write_idle hidle]

theorem extractLsb'_zero_eq_ofNat (v : Word) (n : Nat) : v.extractLsb' 0 n = BitVec.ofNat n v.toNat := by
  rw [BitVec.extractLsb', Nat.shiftRight_zero]

/-- Settles O39: each register's write stores the low bits of the word, as many as its field has. -/
theorem configurationWritesStore : Obligations.ConfigurationWritesStore := by
  intro s v hidle
  rw [← extractLsb'_zero_eq_ofNat, ← extractLsb'_zero_eq_ofNat]
  have stores : ∀ r : Reg, r.readOnly = false → r ≠ .cmd → r ≠ .status →
      exec (r.instr (.write v)) s = .next (regStore r v (answer .done s)) :=
    fun r hro hcmd hstatus => exec_write_idle hidle hro hcmd hstatus v
  exact ⟨stores .crcCfg rfl nofun nofun, stores .crcPoly rfl nofun nofun, stores .chkPayload rfl nofun nofun,
    stores .chkSum rfl nofun nofun, stores .syncCfg rfl nofun nofun, stores .sensorNum rfl nofun nofun⟩

/-! ### Reads -/

/-- Settles O36: every register's read is the host read of that register. -/
theorem readsAnswerTheRegister : Obligations.ReadsAnswerTheRegister := by
  intro r s hspec
  rw [exec_read]
  obtain ⟨-, h⟩ | ⟨hfree, -⟩ := hostRead_cases r s
  · rw [h]
  · rw [hspec] at hfree; cases hfree

theorem exec_read_free {r : Reg} {s : State} (hfree : unspecifiedRead r s = true) :
    exec (r.instr .read) s =
      .next { s with bus := .data (Config.busyRead s.freeCount), freeCount := s.freeCount + 1 } := by
  rw [exec_read]
  obtain ⟨hspec, -⟩ | ⟨-, h⟩ := hostRead_cases r s
  · rw [hfree] at hspec; cases hspec
  · rw [h]

theorem unspecifiedRead_run {s : State} {c : Running} (h : s.seq = .run c) (r : Reg) :
    unspecifiedRead r s = writeSet c.op r := by
  simp only [unspecifiedRead, h]

theorem decodeWrites_iff (r : Reg) :
    decodeWrites r = true ↔
      r = .crcRx ∨ r = .crcCalc ∨ (∃ j, r = .pktDiff j) ∨ (∃ j, r = .pktSum j) ∨ r = .pktInfo ∨ r = .pktDelay ∨
        r = .pktImuXy ∨ r = .pktImuZ := by
  cases r <;> simp [decodeWrites]

/-- Settles O37: in the write set a read is free, outside it a read is specified; the sets by their definition. -/
theorem readsWhileBusyAreFree : Obligations.ReadsWhileBusyAreFree := by
  intro r s
  refine ⟨fun c hc hw => exec_read_free ((unspecifiedRead_run hc r).trans hw), ?sets, ?status,
    fun hidle => readsAnswerTheRegister r s (unspecifiedRead_idle hidle r)⟩
  case sets =>
    intro c
    cases c with
    | tblBuild W P i => cases r <;> simp [Running.op, writeSet]
    | crcCheck W P w => simp [Running.op, writeSet]
    | sync q => simp [Running.op, writeSet]
    | decodeBuf => exact decodeWrites_iff r
    | decode k =>
      cases r with
      | fbuf k => simp [Running.op, writeSet]
      | _ => simp [Running.op, writeSet, decodeWrites]
    | frame p =>
      cases r with
      | fbuf k => simp [Running.op, writeSet]
      | _ => simp [Running.op, writeSet, decodeWrites]
  case status => exact fun op => by cases op <;> rfl

/-! ### Values -/

/-- The number of a concatenation. -/
theorem toNat_append_eq_add {m n : Nat} (x : BitVec m) (y : BitVec n) : (x ++ y).toNat = x.toNat * 2 ^ n + y.toNat := by
  rw [BitVec.toNat_append, ← Nat.shiftLeft_add_eq_or_of_lt y.isLt, Nat.shiftLeft_eq]

theorem busy_toNat (s : State) : s.busy.toNat = if s.seq = .idle then 0 else 1 := by
  cases h : s.seq <;> simp [State.busy, h]

theorem synced_iff (s : State) : s.synced = true ↔ s.syncState = .synchronized := by
  cases h : s.syncState <;> simp [State.synced, h]

/-- A flag's share in a word. -/
theorem mul_toNat_eq_ite (k : Nat) (b : Bool) : k * b.toNat = if b = true then k else 0 := by
  cases b <;> simp

theorem statusWord_toNat (s : State) :
    (statusWord s).toNat = s.busy.toNat + 2 * s.done.toNat + 4 * s.synced.toNat + 8 * s.pktValid.toNat +
      16 * s.ovr.toNat + 32 * s.chkPass.toNat + 64 * s.tblValid.toNat + 256 * s.err.number.toNat := by
  simp only [statusWord, toNat_append_eq_add, BitVec.toNat_ofBool, BitVec.ofNat_eq_ofNat, BitVec.toNat_zero]
  omega

/-- Settles O40: the access forms of STATUS, and its word as the sum of its fields. -/
theorem statusRegister : Obligations.StatusRegister := by
  intro s v
  refine ⟨exec_write_status_eq v s, readsAnswerTheRegister .status s (unspecifiedRead_status s), ?_⟩
  rw [statusWord_toNat, busy_toNat]
  simp only [mul_toNat_eq_ite, synced_iff]
  cases s.err <;> rfl

theorem crcResult_toNat {s : State} (hs : EngineInv s) :
    (crcResult s).toNat = if s.curWidth = 4 then s.crcReg.toNat / 16 else s.crcReg.toNat := by
  unfold crcResult
  split
  · rename_i hW
    obtain ⟨hlt, -⟩ := hs.narrow hW
    rw [BitVec.toNat_setWidth, BitVec.extractLsb'_toNat, Nat.shiftRight_eq_div_pow]
    omega
  · rename_i hW
    rw [mask, Nat.and_two_pow_sub_one_eq_mod, Nat.mod_eq_of_lt (hs.wide hW), hs.toNat_ofNat (hs.wide hW)]

theorem hdrWord_toNat (h : HdrInfo) :
    (hdrWord h).toNat = h.chk.toNat + 16 * h.seq.toNat + 2 ^ 8 * h.fails.toNat + 2 ^ 16 * h.reads.toNat := by
  simp only [hdrWord, toNat_append_eq_add, BitVec.ofNat_eq_ofNat, BitVec.toNat_zero]
  omega

theorem tblInfoWord_toNat (s : State) :
    (tblInfoWord s).toNat = s.tblWidth.toNat + (if s.tblValid then 2 ^ 31 else 0) := by
  simp only [tblInfoWord, toNat_append_eq_add, BitVec.toNat_ofBool, BitVec.ofNat_eq_ofNat, BitVec.toNat_zero]
  cases s.tblValid <;> simp only [Bool.toNat_true, Bool.toNat_false, if_true, Bool.false_eq_true, if_false] <;> omega

/-- Settles O44: a field narrower than a word is read unchanged, and a packed register is the sum of its fields. -/
theorem registerFieldPositions : Obligations.RegisterFieldPositions := by
  intro s
  exact ⟨crcResult_toNat, BitVec.toNat_setWidth_of_le (by decide), rfl, hdrWord_toNat s.hdr, tblInfoWord_toNat s, rfl,
    rfl, BitVec.toNat_setWidth_of_le (by decide), rfl, rfl, rfl, rfl, BitVec.toNat_setWidth_of_le (by decide),
    BitVec.toNat_setWidth_of_le (by decide), rfl, rfl⟩

/-! ### Reset -/

theorem fbufByte_reset (n : Nat) : fbufByte State.reset n = 0x00 := by
  unfold fbufByte
  split <;> rfl

/-- Settles O45: the register files by their bytes, every other register by its reset value. -/
theorem resetRegisterValues : Obligations.ResetRegisterValues := by
  refine ⟨fun r => ?_, fbufByte_reset, rfl, rfl, rfl, rfl⟩
  cases r with
  | pktDiff j => fin_cases j <;> rfl
  | pktSum j => fin_cases j <;> rfl
  | fbuf k => simp only [regValue, fbufWord, fbufByte_reset]; rfl
  | _ => rfl

theorem tableInv_reset : TableInv State.reset where
  range := by simp [State.reset]
  valid h := nomatch h
  building _ _ _ h := nomatch h

/-- Settles O47, an invariant at a time. -/
theorem resetIsSafe : Obligations.ResetIsSafe :=
  ⟨memoryInv_reset, engineInv_reset, tableInv_reset, seqInv_reset, packetInv_reset⟩

end Sys2Proof.Machine
end

section
/-! The register window (spec/20_memory.md R100 to R108): bus addresses, bus errors, reserved offsets, and the words of
FBUF and TABLE. -/

namespace Sys2Proof.Machine

open Sys2Proof

/-! ### Accesses -/

/-- Settles O1: the host's turn of `step`. -/
theorem stepRunsDecodedInstruction : Obligations.StepRunsDecodedInstruction :=
  fun _ _ _ _ ha hd => step_host_ok ha hd

/-- An access of another size, or misaligned, is no instruction (R101). -/
theorem decode_mmio_error {a : HostAccess} (h : a.size ≠ .bits32 ∨ a.offset.toNat % 4 ≠ 0) :
    ∃ e, decode (.mmio a) = .error e := by
  by_cases hsize : a.size = .bits32
  · have halign : a.offset.toNat % 4 ≠ 0 := h.resolve_left (not_not_intro hsize)
    exact ⟨.misaligned, by simp [decode, hsize, halign]⟩
  · exact ⟨.wrongSize, by simp [decode, hsize]⟩

/-- Settles O2: the access does not decode, so the host's turn is settled by the error answer alone. -/
theorem busErrorChangesNothing : Obligations.BusErrorChangesNothing := by
  intro s a rest ha hbad
  obtain ⟨e, he⟩ := decode_mmio_error hbad
  rw [step_host_error ha he]
  rfl

/-! ### Bus addresses -/

theorem windowOffset_base_add (o : Offset) : windowOffset (Config.base + o.toNat) = some o := by
  have ho : o.toNat < 0x1000 := o.isLt
  rw [windowOffset, if_pos ⟨by omega, by omega⟩, Nat.add_sub_cancel_left, BitVec.ofNat_toNat, BitVec.setWidth_eq]

theorem windowOffset_outside {addr : Nat} (h : addr < Config.base ∨ Config.base + 4096 ≤ addr) :
    windowOffset addr = none :=
  if_neg (by omega)

/-- Settles O9. -/
theorem windowAddressing : Obligations.WindowAddressing := by
  refine ⟨fun o a => ?inside, fun addr z a h => ?outside, Nat.mul_mod_right 4096 _⟩
  case inside => rw [busAccess, windowOffset_base_add]; rfl
  case outside => rw [busAccess, windowOffset_outside h]; rfl

/-! ### Reserved offsets and TABLE -/

/-- Settles O41: the access form of a reserved offset. -/
theorem reservedOffsets : Obligations.ReservedOffsets := fun _ _ _ _ => ⟨rfl, rfl⟩

/-- A TABLE read is specified unless TBL_BUILD runs (10_state R72). -/
theorem unspecifiedRead_table {s : State} (h : ∀ W P n, s.seq ≠ .run (.tblBuild W P n)) (i : BitVec 8) :
    unspecifiedRead (.table i) s = false := by
  cases hs : s.seq with
  | idle => exact unspecifiedRead_idle hs _
  | run c =>
    rw [unspecifiedRead_run hs]
    cases c with
    | tblBuild W P n => exact absurd hs (h W P n)
    | _ => rfl

/-- Settles O43: a TABLE entry is a read-only register, with `tableWord` as its value. -/
theorem tableAccess : Obligations.TableAccess := by
  intro i v s
  exact ⟨fun hno => readsAnswerTheRegister (.table i) s (unspecifiedRead_table hno i),
    readOnlyWritesHaveNoEffect (.table i) s v rfl⟩

/-! ### FBUF words -/

/-- What FBUF reads after a word is stored (R106). -/
theorem fbufByte_storeFbufWord {s : State} (h : s.fbuf.wf) (k : Nat) (v : Word) {n : Nat}
    (hn : n < Config.fscore.bodyLen) :
    fbufByte (storeFbufWord k v s) n = if n / 4 = k then byteOf v (n % 4) else fbufByte s n := by
  have h0 := storeFbuf_wf h (4 * k) (byteOf v 0)
  have h1 := storeFbuf_wf h0 (4 * k + 1) (byteOf v 1)
  have h2 := storeFbuf_wf h1 (4 * k + 2) (byteOf v 2)
  rw [storeFbufWord, fbufByte_storeFbuf h2, fbufByte_storeFbuf h1, fbufByte_storeFbuf h0, fbufByte_storeFbuf h]
  have hexists : ∀ m, n = m ∧ m < Config.fscore.bodyLen ↔ n = m := fun m => and_iff_left_of_imp fun h => h ▸ hn
  simp only [hexists]
  by_cases hk : n / 4 = k
  · obtain ⟨j, hj⟩ : ∃ j, j = n % 4 := ⟨_, rfl⟩
    obtain rfl : n = 4 * k + j := by omega
    have hj4 : j < 4 := by omega
    rw [if_pos hk, ← hj]
    interval_cases j <;> simp
  · rw [if_neg hk, if_neg (by omega), if_neg (by omega), if_neg (by omega), if_neg (by omega)]

theorem fbufByte_eq_zero (s : State) {n : Nat} (h : Config.fscore.bodyLen ≤ n) : fbufByte s n = 0x00 :=
  if_neg (Nat.not_lt.2 h)

theorem le32_eq_or (b0 b1 b2 b3 : Byte) :
    le32 b0 b1 b2 b3 =
      b0.setWidth 32 ||| b1.setWidth 32 <<< 8 ||| b2.setWidth 32 <<< 16 ||| b3.setWidth 32 <<< 24 := by
  apply BitVec.eq_of_getLsbD_eq
  intro i hi
  simp only [le32, BitVec.getLsbD_append, BitVec.getLsbD_or, BitVec.getLsbD_shiftLeft, BitVec.getLsbD_setWidth]
  interval_cases i <;> simp

/-- An FBUF word is its bytes put together, with the byte FBUF[51] of word 12 as 0 (R106). -/
theorem fbufWord_eq (s : State) (k : Nat) :
    fbufWord s k =
      ((fbufByte s (4 * k)).setWidth 32 ||| (fbufByte s (4 * k + 1)).setWidth 32 <<< 8 |||
        (fbufByte s (4 * k + 2)).setWidth 32 <<< 16 |||
        (if k = 12 then (0 : Word) else (fbufByte s (4 * k + 3)).setWidth 32 <<< 24)) := by
  rw [fbufWord, le32_eq_or]
  by_cases hk : k = 12
  · have hlast : fbufByte s (4 * k + 3) = 0x00 := fbufByte_eq_zero s (by rw [hk]; decide)
    rw [if_pos hk, hlast]
    rfl
  · rw [if_neg hk]

/-- Settles O42: a word write stores its bytes one by one, and a word read puts them together. -/
theorem fbufWordAccess : Obligations.FbufWordAccess := by
  intro k v s hidle hwf
  refine ⟨⟨storeFbufWord k v (answer .done s), _, ?exec, storeFbufWord_eq k v _, fun n hn => ?bytes⟩, ?read⟩
  case exec => exact exec_write_idle (r := .fbuf k) hidle rfl nofun nofun v
  case bytes => exact fbufByte_storeFbufWord (s := answer .done s) hwf k v hn
  case read =>
    rw [← fbufWord_eq]
    exact readsAnswerTheRegister (.fbuf k) s (unspecifiedRead_idle hidle _)

end Sys2Proof.Machine
end

section
/-! The byte port (spec/20_memory.md R111, R112): who takes an answer, and in which order. -/

namespace Sys2Proof.Machine

open Sys2Proof

/-! ### Who takes an answer -/

/-- SYNC, DECODE or FRAME runs: the commands that read the port. -/
def portReaderRuns (s : State) : Prop :=
  ∃ c, s.seq = .run c ∧ (c.op = .sync ∨ c.op = .decode ∨ c.op = .frame)

/-- At most the first of the answers in l is taken. -/
def takesAtMostOne (l l' : List PortAnswer) : Prop := l' = l ∨ l' = l.tail

theorem portReaderRuns_of_readsPort {s : State} (h : s.readsPort = true) : portReaderRuns s := by
  unfold State.readsPort at h
  split at h
  · cases h
  · rename_i c hc
    refine ⟨c, hc, ?_⟩
    cases c with
    | sync r => exact .inl rfl
    | decode k => exact .inr (.inl rfl)
    | frame p => exact .inr (.inr rfl)
    | _ => cases h

@[simp] theorem withAgenda_readsPort (l : List Event) (s : State) : (withAgenda l s).readsPort = s.readsPort := rfl

/-! ### No instruction touches the port -/

theorem hostRead_port (r : Reg) (s : State) : (hostRead r s).port = s.port := by
  obtain ⟨-, h⟩ | ⟨-, h⟩ := hostRead_cases r s <;> rw [h]

theorem commandRule_port (c : Command) (s : State) : (commandRule c s).port = s.port := by
  rw [commandRule_eq]

theorem regStore_port (r : Reg) (v : Word) (s : State) : (regStore r v s).port = s.port := by
  rw [regStore_eq]

theorem issue_commandRule_port (w : Word) (c : Command) (s : State) : (issue w (commandRule c) s).port = s.port := by
  cases hb : s.busy with
  | true => rw [issue_busy hb]; rfl
  | false => rw [issue_idle ((busy_eq_false_iff s).1 hb), commandRule_port]; rfl

theorem accessRW_write_port (r : Reg) (v : Word) (s : State) :
    (accessRW r (regStore r) (.write v) s).port = s.port := by
  cases hb : s.busy with
  | true => rw [accessRW_write_busy hb]; rfl
  | false => rw [accessRW_write_idle ((busy_eq_false_iff s).1 hb), regStore_port]; rfl

theorem exec_command_port (c : Command) (s : State) : ∃ t, exec c.toInstr s = .next t ∧ t.port = s.port := by
  obtain ⟨w, hw⟩ := exec_command c
  exact ⟨_, hw s, issue_commandRule_port w c s⟩

theorem exec_write_port (r : Reg) (v : Word) (s : State) :
    ∃ t, exec (r.instr (.write v)) s = .next t ∧ t.port = s.port := by
  cases hro : r.readOnly with
  | true => exact ⟨_, exec_write_readOnly hro v s, rfl⟩
  | false =>
    by_cases hcmd : r = .cmd
    · subst hcmd
      obtain ⟨t, ht, hp⟩ := exec_command_port (decodeCommand v) s
      exact ⟨t, (exec_write_cmd v s).trans ht, hp⟩
    by_cases hst : r = .status
    · subst hst
      exact ⟨_, exec_write_status_eq v s, rfl⟩
    exact ⟨_, exec_write_config hro hcmd hst v s, accessRW_write_port r v s⟩

/-- The port is FSCORE's own side: a host access leaves it. -/
theorem exec_port {i : Instr} {s t : State} (h : exec i s = .next t) : t.port = s.port := by
  suffices ∃ u, exec i s = .next u ∧ u.port = s.port by
    obtain ⟨u, hu, hp⟩ := this
    rwa [Host.Outcome.next.inj (hu.symm.trans h)] at hp
  obtain ⟨c, rfl⟩ | ⟨r, a, rfl⟩ | ⟨a, ha⟩ := instr_cases i
  · exact exec_command_port c s
  · cases a with
    | read => exact ⟨_, exec_read r s, hostRead_port r s⟩
    | write v => exact exec_write_port r v s
  · refine ⟨_, ha s, ?_⟩
    cases a <;> rfl

/-! ### A turn of the sequencer takes at most one answer -/

theorem searchStep_port (r : SyncRun) (s : State) : takesAtMostOne s.port (searchStep r s).state.port := by
  have searchOn_port : ∀ q u, (searchOn q u).state.port = u.port := by
    intro q u
    obtain ⟨-, h⟩ | ⟨-, h⟩ := searchOn_cases q u <;> rw [h] <;> rfl
  unfold searchStep
  split
  · obtain ⟨-, h⟩ | ⟨-, -, h⟩ | ⟨-, rest, hp, h⟩ | ⟨-, a, rest, hp, -, h⟩ := searchCandidate_cases r s <;> rw [h]
    · exact .inl rfl
    · exact .inl rfl
    · exact .inr (by rw [hp]; rfl)
    · exact .inr (by rw [hp, searchOn_port]; rfl)
  · obtain ⟨-, h⟩ | ⟨rest, hp, h⟩ | ⟨b, rest, hp, -, h⟩ | ⟨b, rest, hp, -, h⟩ := searchHeader_cases r s <;> rw [h]
    · exact .inl rfl
    · exact .inr (by rw [hp, searchOn_port]; rfl)
    · exact .inr (by rw [hp]; rfl)
    · exact .inr (by rw [hp, searchOn_port]; rfl)

theorem storeFbuf_port (k : Nat) (b : Byte) (s : State) : (storeFbuf k b s).port = s.port := by
  rw [storeFbuf_eq]

theorem decodeBody_port (s : State) : (decodeBody s).port = s.port := by
  rw [decodeBody_eq]; rfl

theorem bodyStep_port (k : Nat) (s : State) : takesAtMostOne s.port (bodyStep k s).state.port := by
  obtain ⟨-, h⟩ | ⟨rest, hp, h⟩ | ⟨b, rest, hp, -, h⟩ | ⟨b, rest, hp, -, h⟩ := bodyStep_cases k s <;> rw [h]
  · exact .inl rfl
  · exact .inr (by rw [hp]; rfl)
  · exact .inr (by rw [hp, BodyResult.state, storeFbuf_port]; rfl)
  · exact .inr (by rw [hp, BodyResult.state, decodeBody_port, storeFbuf_port]; rfl)

theorem tblBuildStep_port (W : BitVec 6) (P : Word) (i : Nat) (s : State) : (tblBuildStep W P i s).port = s.port := by
  obtain ⟨-, h⟩ | ⟨-, h⟩ := tblBuildStep_cases W P i s <;> rw [h] <;> rfl

theorem crcCheckStep_port (W : BitVec 6) (P : Word) (w : Nat) (s : State) : (crcCheckStep W P w s).port = s.port := by
  obtain ⟨-, h⟩ | ⟨-, h⟩ := crcCheckStep_cases W P w s <;> rw [h] <;> rfl

theorem syncStep_port (r : SyncRun) (s : State) : takesAtMostOne s.port (syncStep r s).port := by
  have hp := searchStep_port r s
  obtain ⟨r', t, he, h⟩ | ⟨code, t, he, h⟩ := syncStep_cases r s <;> rw [h] <;> rw [he] at hp <;> exact hp

theorem decodeStep_port (k : Nat) (s : State) : takesAtMostOne s.port (decodeStep k s).port := by
  have hp := bodyStep_port k s
  obtain ⟨k', t, he, h⟩ | ⟨code, t, he, h⟩ := decodeStep_cases k s <;> rw [h] <;> rw [he] at hp <;> exact hp

theorem frameStep_port (s : State) : ∀ p, takesAtMostOne s.port (frameStep p s).port
  | .search r => by
    have hp := searchStep_port r s
    obtain ⟨r', t, he, h⟩ | ⟨t, he, h⟩ | ⟨code, t, he, h⟩ := frameStep_search_cases r s <;> rw [h] <;>
      rw [he] at hp <;> exact hp
  | .body k => by
    have hp := bodyStep_port k s
    obtain ⟨k', t, he, h⟩ | ⟨code, t, he, h⟩ := frameStep_body_cases k s <;> rw [h] <;> rw [he] at hp <;> exact hp

/-- The sequencer takes no answer, or the first one for a command that reads the port. -/
theorem sequencerStep_port (s : State) :
    (sequencerStep s).port = s.port ∨ ((sequencerStep s).port = s.port.tail ∧ portReaderRuns s) := by
  have reader : ∀ {l : List PortAnswer}, takesAtMostOne s.port l → portReaderRuns s →
      l = s.port ∨ (l = s.port.tail ∧ portReaderRuns s) := fun hl hr => hl.imp_right fun hl => ⟨hl, hr⟩
  unfold sequencerStep
  split
  · exact .inl rfl
  · exact .inl (tblBuildStep_port _ _ _ s)
  · exact .inl (crcCheckStep_port _ _ _ s)
  · rename_i r hc
    exact reader (syncStep_port r s) ⟨_, hc, .inl rfl⟩
  · rename_i k hc
    exact reader (decodeStep_port k s) ⟨_, hc, .inr (.inl rfl)⟩
  · rename_i p hc
    exact reader (frameStep_port s p) ⟨_, hc, .inr (.inr rfl)⟩
  · exact .inl (decodeBody_port s)

/-- Settles O58, by the agent whose turn it is: the sequencer may take the first answer, a reset the one in flight, the
byte source adds one behind, and the host leaves the port. -/
theorem portIsReadInOrder : Obligations.PortIsReadInOrder := by
  intro s t h
  obtain ⟨-, rfl⟩ | ⟨c, rest, i, -, -, he⟩ | ⟨c, rest, e, -, -, rfl⟩ | ⟨rest, -, rfl⟩ | ⟨rest, -, rfl⟩ |
    ⟨a, rest, ha, rfl⟩ | ⟨b, rest, -, rfl⟩ := step_cases h
  · exact (sequencerStep_port s).imp_right .inl
  · exact .inl (exec_port (s := withAgenda rest s) he)
  · exact .inl rfl
  · exact .inl (hostRead_port _ _)
  · exact (sequencerStep_port (withAgenda rest s)).imp_right .inl
  · exact .inr (.inr ⟨a, rest, ha, rfl⟩)
  · obtain hp | ⟨-, hr, hp⟩ := platformReset_port b (withAgenda rest s)
    · exact .inl hp
    · exact .inr (.inl ⟨hp, portReaderRuns_of_readsPort hr⟩)

end Sys2Proof.Machine
end

section
/-! What is left to do of a command that reads the port (spec/20_memory.md R113; log 2, log 3): the sequencer's steps
keep it, so a command whose answers run out never ends. -/

namespace Sys2Proof.Machine

open Sys2Proof

/-! ### The loop of `SyncCore` on the answers -/

theorem scan_spent {budget reads : Nat} (h : budget ≤ reads) (old : HdrInfo) (fails : Nat) (l : List PortAnswer) :
    scan budget old reads fails l =
      some ⟨.syncTimeout, { old with fails := BitVec.ofNat 8 fails, reads := BitVec.ofNat 8 reads }, l⟩ := by
  have hnot : ¬ reads < budget := by omega
  cases l <;> rw [scan.eq_def] <;> exact if_neg hnot

theorem scan_other {budget reads : Nat} (h : reads < budget) (old : HdrInfo) (fails : Nat) {a : PortAnswer}
    (ha : a ≠ .byte Config.fscore.marker) (rest : List PortAnswer) :
    scan budget old reads fails (a :: rest) = scan budget old (reads + 1) fails rest := by
  rw [scan.eq_def]
  exact (if_pos h).trans (if_neg ha)

/-- The loop of `SyncCore` from any of its two reads on (41_frame_sync R232). -/
def scanFrom (r : SyncRun) (old : HdrInfo) (l : List PortAnswer) : Option SearchEnd :=
  match r.pos with
  | .candidate => scan r.budget old r.reads r.fails l
  | .header =>
    match l with
    | [] => none
    | .timeout :: rest => scan r.budget old r.reads (r.fails + 1) rest
    | .byte h :: rest =>
      if hdrCheck h then some ⟨.ok, foundInfo h r.fails r.reads, rest⟩
      else scan r.budget old r.reads (r.fails + 1) rest

theorem scan_marker {budget reads : Nat} (h : reads < budget) (old : HdrInfo) (fails : Nat) (rest : List PortAnswer) :
    scan budget old reads fails (.byte Config.fscore.marker :: rest) =
      scanFrom ⟨budget, reads + 1, fails, .header⟩ old rest := by
  rw [scan.eq_def]
  exact ((if_pos h).trans (if_pos rfl)).trans rfl

/-! ### The rest of a search -/

/-- The code and the state a search ends with in s. -/
def SearchEnd.inState (e : SearchEnd) (s : State) : ErrCode × State :=
  (e.code,
    { s with
      syncState := if e.code = .ok then .synchronized else s.syncState
      hdr := e.hdr
      port := e.port })

/-- The rest of `SyncCore` from the locals r on; `none` where the answers run out. -/
def searchRest (r : SyncRun) (s : State) : Option (ErrCode × State) :=
  (scanFrom r s.hdr s.port).map fun e => e.inState s

/-- The rest of `SyncCore` after a step of it. -/
def SearchResult.rest : SearchResult → Option (ErrCode × State)
  | .searching r s => searchRest r s
  | .ended code s => some (code, s)

theorem rest_searchTimeout {r : SyncRun} (hpos : r.pos = .candidate) (h : r.budget ≤ r.reads) (s : State) :
    (searchTimeout r s).rest = searchRest r s := by
  simp only [searchRest, scanFrom, hpos, scan_spent h]
  rfl

theorem rest_searchOn (r : SyncRun) (s : State) :
    (searchOn r s).rest = searchRest { r with pos := .candidate } s := by
  obtain ⟨-, h⟩ | ⟨hspent, h⟩ := searchOn_cases r s <;> rw [h]
  · rfl
  · exact rest_searchTimeout (r := { r with pos := .candidate }) rfl hspent s

theorem rest_searchCandidate {r : SyncRun} (hpos : r.pos = .candidate) (s : State) :
    (searchCandidate r s).rest = searchRest r s := by
  obtain ⟨hspent, h⟩ | ⟨hlt, hp, h⟩ | ⟨hlt, rest, hp, h⟩ | ⟨hlt, a, rest, hp, ha, h⟩ := searchCandidate_cases r s <;>
    rw [h]
  · exact rest_searchTimeout hpos hspent s
  · rfl
  · simp only [searchRest, scanFrom, hpos, hp, scan_marker hlt]
    rfl
  · rw [rest_searchOn]
    simp only [searchRest, scanFrom, hpos, hp, scan_other hlt _ _ ha]
    rfl

theorem rest_searchHeader {r : SyncRun} (hpos : r.pos = .header) (s : State) :
    (searchHeader r s).rest = searchRest r s := by
  obtain ⟨-, h⟩ | ⟨rest, hp, h⟩ | ⟨b, rest, hp, hc, h⟩ | ⟨b, rest, hp, hc, h⟩ := searchHeader_cases r s <;> rw [h]
  · rfl
  · rw [rest_searchOn]
    simp only [searchRest, scanFrom, hpos, hp]
    rfl
  · simp only [searchRest, scanFrom, hpos, hp, hc, if_true]
    rfl
  · rw [rest_searchOn]
    simp only [searchRest, scanFrom, hpos, hp, hc, Bool.false_eq_true, if_false]
    rfl

/-- A step of `SyncCore` leaves the rest of the search as it was. -/
theorem rest_searchStep (r : SyncRun) (s : State) : (searchStep r s).rest = searchRest r s := by
  unfold searchStep
  split
  · exact rest_searchCandidate (by assumption) s
  · exact rest_searchHeader (by assumption) s

theorem searchRest_start (r : SyncRun) (c : Running) (s : State) :
    searchRest r (start c s) = (searchRest r s).map (Prod.map id (start c)) := by
  simp only [searchRest, Option.map_map]
  rfl

/-! ### The rest of a body -/

/-- `DecodeBody()` on a complete body (42_packet_decoder R267, R269). -/
def afterBody : ErrCode × State → ErrCode × State
  | (code, t) => if code = .ok then (bodyCode t, decodeBody t) else (code, t)

/-- The rest of `ReadBody` from byte k on, with the decode after it. One read attempt at least is made, as by `bodyStep`,
also for a k no body has. -/
def bodyRest (k : Nat) (s : State) : Option (ErrCode × State) :=
  (readBody (Config.fscore.bodyLen - (k + 1) + 1) k s).map afterBody

/-- The rest of `ReadBody` after a step of it. -/
def BodyResult.rest : BodyResult → Option (ErrCode × State)
  | .reading k s => bodyRest k s
  | .ended code s => some (code, s)

/-- A step of `ReadBody` leaves the rest of the body as it was. -/
theorem rest_bodyStep (k : Nat) (s : State) : (bodyStep k s).rest = bodyRest k s := by
  obtain ⟨-, h⟩ | ⟨rest, hp, h⟩ | ⟨b, rest, hp, hk, h⟩ | ⟨b, rest, hp, hk, h⟩ := bodyStep_cases k s <;> rw [h]
  · rfl
  · simp only [bodyRest, readBody, portRead, hp]
    rfl
  · have hlen : Config.fscore.bodyLen - (k + 1) = Config.fscore.bodyLen - (k + 1 + 1) + 1 := by omega
    rw [bodyRest, readBody, hlen]
    simp only [portRead, hp]
    rfl
  · have hlen : Config.fscore.bodyLen - (k + 1) = 0 := by omega
    simp only [bodyRest, hlen, readBody, portRead, hp]
    rfl

theorem readBody_start (c : Running) (n : Nat) :
    ∀ k s, readBody n k (start c s) = (readBody n k s).map (Prod.map id (start c)) := by
  induction n with
  | zero => exact fun _ _ => rfl
  | succ n ih =>
    intro k s
    obtain ⟨hp, hr⟩ | ⟨a, rest, hp, hr⟩ := portRead_cases s
    · simp only [readBody, portRead, start_port, hp]
      rfl
    · cases a with
      | timeout =>
        simp only [readBody, portRead, start_port, hp]
        rfl
      | byte b =>
        have hstore :
            storeFbuf k b (start c { s with port := rest }) = start c (storeFbuf k b { s with port := rest }) := by
          simp only [storeFbuf_eq]
          rfl
        simp only [readBody, portRead, start_port, hp]
        rw [← ih, ← hstore]
        rfl

theorem afterBody_start (c : Running) (p : ErrCode × State) :
    afterBody (Prod.map id (start c) p) = Prod.map id (start c) (afterBody p) := by
  obtain ⟨code, t⟩ := p
  by_cases hcode : code = .ok
  · have hdecode : decodeBody (start c t) = start c (decodeBody t) := by
      unfold decodeBody
      rw [apply_ite (start c)]
      rfl
    simp only [afterBody, Prod.map, id, if_pos hcode, hdecode]
    rfl
  · simp only [afterBody, Prod.map, id, if_neg hcode]

theorem bodyRest_start (k : Nat) (c : Running) (s : State) :
    bodyRest k (start c s) = (bodyRest k s).map (Prod.map id (start c)) := by
  simp only [bodyRest, readBody_start, Option.map_map]
  exact congrArg (Option.map · _) (funext fun p => afterBody_start c p)

/-! ### The rest of a command -/

/-- The rest of DECODE, and of FRAME in its body, from byte k on. -/
def decodeRest (k : Nat) (s : State) : Option State := (bodyRest k s).map fun p => endFrame p.1 p.2

/-- FRAME after its search (42_packet_decoder R269). -/
def afterSearch (p : ErrCode × State) : Option State :=
  if p.1 = .ok then decodeRest 0 p.2 else some (endFrame p.1 p.2)

/-- The rest of a command that reads the port, `none` where the answers run out. The other commands need no answer;
they stand here with the state they are in. -/
def Running.rest : Running → State → Option State
  | .sync r, s => (searchRest r s).map fun p => finish p.1 p.2
  | .decode k, s => decodeRest k s
  | .frame (.search r), s => (searchRest r s).bind afterSearch
  | .frame (.body k), s => decodeRest k s
  | .tblBuild _ _ _, s => some s
  | .crcCheck _ _ _, s => some s
  | .decodeBuf, s => some s

/-- What the sequencer still has to do in s; while IDLE nothing. -/
def commandRest (s : State) : Option State :=
  match s.seq with
  | .idle => some s
  | .run c => c.rest s

theorem commandRest_of_run {s : State} {c : Running} (h : s.seq = .run c) : commandRest s = c.rest s := by
  unfold commandRest
  rw [h]

theorem commandRest_of_idle {s : State} (h : s.seq = .idle) : commandRest s = some s := by
  unfold commandRest
  rw [h]

theorem decodeRest_start (k : Nat) (c : Running) (s : State) : decodeRest k (start c s) = decodeRest k s := by
  simp only [decodeRest, bodyRest_start, Option.map_map]
  rfl

theorem afterSearch_start (c : Running) (p : ErrCode × State) :
    afterSearch (Prod.map id (start c) p) = afterSearch p := by
  unfold afterSearch
  simp only [Prod.map, id, decodeRest_start]
  rfl

/-- What is left to do does not depend on how the command in progress is recorded. -/
theorem rest_start (c d : Running) (hd : d.op = .sync ∨ d.op = .decode ∨ d.op = .frame) (s : State) :
    d.rest (start c s) = d.rest s := by
  cases d with
  | sync r =>
    simp only [Running.rest, searchRest_start, Option.map_map]
    rfl
  | decode k => exact decodeRest_start k c s
  | frame p =>
    cases p with
    | search r =>
      simp only [Running.rest, searchRest_start, Option.bind_map]
      exact congrArg (Option.bind _) (funext (afterSearch_start c))
    | body k => exact decodeRest_start k c s
  | _ => simp [Running.op] at hd

/-! ### A turn of the sequencer leaves the rest of the command as it was -/

theorem commandRest_syncStep (r : SyncRun) (s : State) : commandRest (syncStep r s) = (Running.sync r).rest s := by
  have hrest := rest_searchStep r s
  obtain ⟨r', t, he, h⟩ | ⟨code, t, he, h⟩ := syncStep_cases r s <;> rw [he] at hrest <;> rw [h]
  · rw [commandRest_of_run rfl, rest_start _ _ (.inl rfl), Running.rest, Running.rest, ← hrest, SearchResult.rest]
  · rw [commandRest_of_idle rfl, Running.rest, ← hrest]
    rfl

theorem commandRest_decodeStep (k : Nat) (s : State) : commandRest (decodeStep k s) = decodeRest k s := by
  have hrest := rest_bodyStep k s
  obtain ⟨k', t, he, h⟩ | ⟨code, t, he, h⟩ := decodeStep_cases k s <;> rw [he] at hrest <;> rw [h]
  · rw [commandRest_of_run rfl, rest_start _ _ (.inr (.inl rfl)), Running.rest, decodeRest, decodeRest, ← hrest,
      BodyResult.rest]
  · rw [commandRest_of_idle rfl, decodeRest, ← hrest]
    rfl

theorem commandRest_frameStep_search (r : SyncRun) (s : State) :
    commandRest (frameStep (.search r) s) = (searchRest r s).bind afterSearch := by
  have hrest := rest_searchStep r s
  simp only [frameStep]
  cases he : searchStep r s with
  | searching r' t =>
    rw [he] at hrest
    rw [commandRest_of_run rfl, rest_start _ _ (.inr (.inr rfl)), Running.rest, ← hrest, SearchResult.rest]
  | ended code t =>
    rw [he] at hrest
    rw [← hrest, SearchResult.rest, Option.bind_some]
    cases code with
    | ok => rw [commandRest_of_run rfl, rest_start _ _ (.inr (.inr rfl)), Running.rest, afterSearch, if_pos rfl]
    | _ => exact commandRest_of_idle rfl

theorem commandRest_frameStep_body (k : Nat) (s : State) : commandRest (frameStep (.body k) s) = decodeRest k s := by
  have hrest := rest_bodyStep k s
  obtain ⟨k', t, he, h⟩ | ⟨code, t, he, h⟩ := frameStep_body_cases k s <;> rw [he] at hrest <;> rw [h]
  · rw [commandRest_of_run rfl, rest_start _ _ (.inr (.inr rfl)), Running.rest, decodeRest, decodeRest, ← hrest,
      BodyResult.rest]
  · rw [commandRest_of_idle rfl, decodeRest, ← hrest]
    rfl

/-- While SYNC, DECODE or FRAME runs, the sequencer's step is the first of the rest of its rule. -/
theorem commandRest_sequencerStep {s : State} (h : portReaderRuns s) :
    commandRest (sequencerStep s) = commandRest s := by
  obtain ⟨c, hc, hop⟩ := h
  rw [commandRest_of_run hc]
  cases c with
  | sync r => rw [sequencerStep, hc]; exact commandRest_syncStep r s
  | decode k => rw [sequencerStep, hc]; exact commandRest_decodeStep k s
  | frame p =>
    rw [sequencerStep, hc]
    cases p with
    | search r => exact commandRest_frameStep_search r s
    | body k => exact commandRest_frameStep_body k s
  | _ => simp [Running.op] at hop

/-! ### A silent byte source -/

theorem portReaderRuns_of_commandRest_eq_none {s : State} (h : commandRest s = none) : portReaderRuns s := by
  cases hs : s.seq with
  | idle => rw [commandRest_of_idle hs] at h; cases h
  | run c =>
    rw [commandRest_of_run hs] at h
    refine ⟨c, hs, ?_⟩
    cases c with
    | sync r => exact .inl rfl
    | decode k => exact .inr (.inl rfl)
    | frame p => exact .inr (.inr rfl)
    | _ => cases h

/-- A command whose answers run out is still running after any number of steps. -/
theorem runSequencer_busy_of_commandRest_eq_none (n : Nat) :
    ∀ {s : State}, commandRest s = none → (runSequencer n s).busy = true := by
  induction n with
  | zero =>
    intro s h
    obtain ⟨c, hc, -⟩ := portReaderRuns_of_commandRest_eq_none h
    exact (busy_eq_true_iff s).2 ⟨c, hc⟩
  | succ n ih =>
    intro s h
    exact ih ((commandRest_sequencerStep (portReaderRuns_of_commandRest_eq_none h)).trans h)

/-- At its acceptance, what is left of SYNC is its whole rule. -/
theorem commandRest_ruleSync (s : State) : commandRest (ruleSync s) = wholeSync (ruleSync s) := by
  rw [commandRest_of_run rfl, Running.rest, wholeSync]
  rfl

/-- At its acceptance, what is left of DECODE is its whole rule. -/
theorem commandRest_ruleDecode (s : State) : commandRest (ruleDecode s) = wholeDecode (ruleDecode s) := rfl

/-- At its acceptance, what is left of FRAME is its whole rule. -/
theorem commandRest_ruleFrame (s : State) : commandRest (ruleFrame s) = wholeFrame (ruleFrame s) := by
  have hsearch : searchRest (searchBegin s) (ruleFrame s) = wholeSearch (ruleFrame s) := rfl
  rw [commandRest_of_run rfl, Running.rest, hsearch, wholeFrame]
  cases wholeSearch (ruleFrame s) with
  | none => rfl
  | some p =>
    obtain ⟨code, t⟩ := p
    cases code <;> rfl

/-- A command issued while IDLE is accepted. -/
theorem exec_command_accepted {s t : State} (hidle : s.seq = .idle) (c : Command)
    (h : exec c.toInstr s = .next t) : ∃ u, t = commandRule c u := by
  obtain ⟨w, hw⟩ := exec_command c
  rw [hw, issue_idle hidle] at h
  exact ⟨_, (Host.Outcome.next.inj h).symm⟩

/-- Settles O34: at its acceptance what is left of a command is its whole rule, and where that lacks an answer the
sequencer's steps do not end it. -/
theorem silentSourceHangsTheCommand : Obligations.SilentSourceHangsTheCommand := by
  intro s t n hidle
  refine ⟨fun ht hnone => ?sync, fun ht hnone => ?decode, fun ht hnone => ?frame⟩
  case sync =>
    obtain ⟨u, rfl⟩ := exec_command_accepted hidle .sync ht
    exact runSequencer_busy_of_commandRest_eq_none n ((commandRest_ruleSync u).trans hnone)
  case decode =>
    obtain ⟨u, rfl⟩ := exec_command_accepted hidle .decode ht
    exact runSequencer_busy_of_commandRest_eq_none n ((commandRest_ruleDecode u).trans hnone)
  case frame =>
    obtain ⟨u, rfl⟩ := exec_command_accepted hidle .frame ht
    exact runSequencer_busy_of_commandRest_eq_none n ((commandRest_ruleFrame u).trans hnone)

end Sys2Proof.Machine
end

section
/-! The opcode table's words and the command issue by a CMD write (spec/30_encoding.md R145, R154; spec/10_state.md R33;
log 8). -/

namespace Sys2Proof.Machine

open Sys2Proof

/-- A table word that stands for an instruction's encoded form decodes to the instruction. -/
theorem decodeTableWord_of_encode {nbits w : Nat} {i : Instr} (hi : Laws.RoundTrip.Statement i)
    (hwf : i.wellFormed = true) (hcode : tableCode nbits w = some (encode i)) : decodeTableWord nbits w = some i := by
  simp only [decodeTableWord, hcode, hi hwf]

/-- Settles O7: each word is its instruction's encoded form, and that decodes back to the instruction. -/
theorem writtenOutWordsDecode : Obligations.WrittenOutWordsDecode :=
  ⟨decodeTableWord_of_encode (Laws.RoundTrip.crcUpdBit _) rfl rfl,
    decodeTableWord_of_encode (Laws.RoundTrip.crcUpdTbl _) rfl rfl,
    decodeTableWord_of_encode Laws.RoundTrip.tblBuild rfl rfl,
    decodeTableWord_of_encode Laws.RoundTrip.frame rfl rfl,
    decodeTableWord_of_encode (Laws.RoundTrip.illegalCmd _) rfl rfl,
    decodeTableWord_of_encode (Laws.RoundTrip.mmioPktSum5 _) rfl rfl,
    decodeTableWord_of_encode (Laws.RoundTrip.mmioFbuf _ _) rfl rfl,
    decodeTableWord_of_encode (Laws.RoundTrip.mmioTable _ _) rfl rfl,
    decodeTableWord_of_encode (Laws.RoundTrip.mmioReserved _ _) rfl rfl⟩

/-- Settles O10: `exec_write_cmd` says it in every state, BUSY or not. -/
theorem cmdWriteExecutesDecodedCommand : Obligations.CmdWriteExecutesDecodedCommand :=
  exec_write_cmd

end Sys2Proof.Machine
end

section
/-! TABLE is exact (spec/40_crc_engine.md R185, R186; spec/70_reset_and_hazards.md R357): only TBL_BUILD writes it, an
entry a step, and no other command touches it or its tag. -/

namespace Sys2Proof.Machine

open Sys2Proof

/-! ### TABLE and its tag left alone -/

/-- TABLE and its tag stand in t as in s. -/
structure TableKept (s t : State) : Prop where
  table : t.table = s.table
  tblWidth : t.tblWidth = s.tblWidth
  tblPoly : t.tblPoly = s.tblPoly
  tblValid : t.tblValid = s.tblValid

theorem tableFilled_congr {s t : State} (h : t.table = s.table) (W P n : Nat) :
    tableFilled t W P n ↔ tableFilled s W P n := by
  simp only [tableFilled, tableEntry, h]

/-- The invariant stays where TABLE and its tag do, unless a TBL_BUILD begins or advances. -/
theorem TableInv.of_kept {s t : State} (hs : TableInv s) (hk : TableKept s t)
    (hseq : ∀ W P i, t.seq = .run (.tblBuild W P i) → s.seq = .run (.tblBuild W P i)) : TableInv t where
  range := hk.table ▸ hs.range
  valid hv := by
    rw [hk.tblWidth, hk.tblPoly, tableFilled_congr hk.table]
    exact hs.valid (hk.tblValid ▸ hv)
  building W P i h := by
    rw [hk.tblValid, tableFilled_congr hk.table]
    exact hs.building W P i (hseq W P i h)

theorem SearchEffect.tableKept {r : SyncRun} {s : State} {res : SearchResult} (h : SearchEffect r s res) :
    TableKept s res.state := by
  cases h <;> exact ⟨rfl, rfl, rfl, rfl⟩

theorem bodyStep_tableKept (k : Nat) (s : State) : TableKept s (bodyStep k s).state := by
  obtain ⟨-, h⟩ | ⟨rest, -, h⟩ | ⟨b, rest, -, -, h⟩ | ⟨b, rest, -, -, h⟩ := bodyStep_cases k s <;> rw [h]
  · exact ⟨rfl, rfl, rfl, rfl⟩
  · exact ⟨rfl, rfl, rfl, rfl⟩
  · rw [storeFbuf_eq]
    exact ⟨rfl, rfl, rfl, rfl⟩
  · rw [storeFbuf_eq, decodeBody_eq]
    exact ⟨rfl, rfl, rfl, rfl⟩

/-! ### An accepted command -/

/-- TBL_BUILD begins with no entry to vouch for, and the table invalid. -/
theorem TableInv.start_tblBuild {s : State} (hs : TableInv s) {W : BitVec 6} {P : Word}
    (hlegal : cfgLegal W.toNat P.toNat = true) :
    TableInv (start (.tblBuild W P 0) { s with tblValid := false }) where
  range := hs.range
  valid h := nomatch h
  building _ _ _ h := by
    cases h
    exact ⟨hlegal, Nat.succ_pos 255, rfl, fun b hb => absurd hb (Nat.not_lt_zero b)⟩

theorem TableInv.commandRule {s : State} (hs : TableInv s) (c : Command) : TableInv (commandRule c s) := by
  cases c with
  | crcInit =>
    obtain ⟨-, h⟩ | h := ruleCrcInit_cases s <;> rw [Machine.commandRule, h] <;>
      exact hs.of_kept ⟨rfl, rfl, rfl, rfl⟩ nofun
  | crcUpdTbl b =>
    obtain ⟨-, h⟩ | ⟨code, h⟩ := ruleCrcUpdTbl_cases b s <;> rw [Machine.commandRule, h] <;>
      exact hs.of_kept ⟨rfl, rfl, rfl, rfl⟩ nofun
  | crcCheck =>
    obtain ⟨-, -, h⟩ | h := ruleCrcCheck_cases s <;> rw [Machine.commandRule, h] <;>
      exact hs.of_kept ⟨rfl, rfl, rfl, rfl⟩ nofun
  | tblBuild =>
    obtain ⟨hlegal, h⟩ | h := ruleTblBuild_cases s <;> rw [Machine.commandRule, h]
    · exact hs.start_tblBuild hlegal
    · exact hs.of_kept ⟨rfl, rfl, rfl, rfl⟩ nofun
  | _ => exact hs.of_kept ⟨rfl, rfl, rfl, rfl⟩ nofun

/-! ### A turn of the sequencer -/

/-- The entry TBL_BUILD stores extends the entries filled so far by one (R185). -/
theorem tableFilled_storeTable {s : State} (hwf : s.table.wf) {W P i : Nat} (h : tableFilled s W P i) :
    tableFilled (storeTable i (tableValue W P i) s) W P (i + 1) := by
  intro b hb
  rw [tableEntry, storeTable_table, Memory.readWord_writeWord hwf]
  split
  · next e => rw [e]
  · exact h b (by omega)

theorem TableInv.tblBuildStep {s : State} (hs : TableInv s) (hwf : s.table.wf) {W : BitVec 6} {P : Word} {i : Nat}
    (hseq : s.seq = .run (.tblBuild W P i)) : TableInv (tblBuildStep W P i s) := by
  obtain ⟨hlegal, hi, hinvalid, hfilled⟩ := hs.building W P i hseq
  have hrange := writeWord_range (k := 4 * Config.fscore.tblEntries) hs.range (i := i) (by omega)
    (tableValue W.toNat P.toNat i)
  have hfilled' := tableFilled_storeTable hwf hfilled
  obtain ⟨hlt, h⟩ | ⟨hlast, h⟩ := tblBuildStep_cases W P i s <;> rw [h]
  · refine ⟨hrange, fun hv => absurd (hinvalid.symm.trans hv) Bool.false_ne_true, fun _ _ _ hb => ?_⟩
    cases hb
    exact ⟨hlegal, hlt, hinvalid, hfilled'⟩
  · rw [show i + 1 = Config.fscore.tblEntries by omega] at hfilled'
    exact ⟨hrange, fun _ => ⟨hlegal, hfilled'⟩, nofun⟩

theorem TableInv.crcCheckStep {s : State} (hs : TableInv s) (W : BitVec 6) (P : Word) (w : Nat) :
    TableInv (crcCheckStep W P w s) := by
  obtain ⟨-, h⟩ | ⟨-, h⟩ := crcCheckStep_cases W P w s <;> rw [h] <;> exact hs.of_kept ⟨rfl, rfl, rfl, rfl⟩ nofun

theorem TableInv.syncStep {s : State} (hs : TableInv s) (r : SyncRun) : TableInv (syncStep r s) := by
  have hk := (searchStep_effect r s).tableKept
  obtain ⟨r', t, he, h⟩ | ⟨code, t, he, h⟩ := syncStep_cases r s <;> rw [h] <;> rw [he] at hk <;>
    exact hs.of_kept { hk with } nofun

theorem TableInv.decodeStep {s : State} (hs : TableInv s) (k : Nat) : TableInv (decodeStep k s) := by
  have hk := bodyStep_tableKept k s
  obtain ⟨k', t, he, h⟩ | ⟨code, t, he, h⟩ := decodeStep_cases k s <;> rw [h] <;> rw [he] at hk <;>
    exact hs.of_kept { hk with } nofun

theorem TableInv.frameStep {s : State} (hs : TableInv s) : ∀ p, TableInv (frameStep p s)
  | .search r => by
    have hk := (searchStep_effect r s).tableKept
    obtain ⟨r', t, he, h⟩ | ⟨t, he, h⟩ | ⟨code, t, he, h⟩ := frameStep_search_cases r s <;> rw [h] <;> rw [he] at hk <;>
      exact hs.of_kept { hk with } nofun
  | .body k => by
    have hk := bodyStep_tableKept k s
    obtain ⟨k', t, he, h⟩ | ⟨code, t, he, h⟩ := frameStep_body_cases k s <;> rw [h] <;> rw [he] at hk <;>
      exact hs.of_kept { hk with } nofun

theorem TableInv.decodeBufStep {s : State} (hs : TableInv s) : TableInv (decodeBufStep s) := by
  rw [Machine.decodeBufStep, decodeBody_eq]
  exact hs.of_kept ⟨rfl, rfl, rfl, rfl⟩ nofun

theorem TableInv.sequencerStep {s : State} (hs : TableInv s) (hwf : s.table.wf) : TableInv (sequencerStep s) := by
  cases hseq : s.seq with
  | idle => rwa [sequencerStep_idle hseq]
  | run c =>
    simp only [Machine.sequencerStep, hseq]
    cases c with
    | tblBuild W P i => exact hs.tblBuildStep hwf hseq
    | crcCheck W P w => exact hs.crcCheckStep W P w
    | sync r => exact hs.syncStep r
    | decode k => exact hs.decodeStep k
    | frame p => exact hs.frameStep p
    | decodeBuf => exact hs.decodeBufStep

/-- Settles O50: a table is vouched for entry by entry as TBL_BUILD fills it, and nothing else writes TABLE or its tag;
that a stored entry reads back needs the canonical form of O48 beside it. -/
theorem stepKeepsTableExact : Obligations.StepKeepsTableExact := by
  intro s t hmem hs h
  refine (step_keeps (P := fun s => MemoryInv s ∧ TableInv s) ⟨memoryInv_reset, tableInv_reset⟩
    ?agents ?overrun ?store ?command ?sequencer ⟨hmem, hs⟩ h).2
  case agents => exact fun _ _ ⟨hm, hs⟩ => ⟨{ hm with }, hs.of_kept ⟨rfl, rfl, rfl, rfl⟩ fun _ _ _ h => h⟩
  case overrun => exact fun _ _ ⟨hm, hs⟩ => ⟨{ hm with }, hs.of_kept ⟨rfl, rfl, rfl, rfl⟩ fun _ _ _ h => h⟩
  case store =>
    intro r v s _ ⟨hm, hs⟩
    refine ⟨hm.regStore r v, ?_⟩
    rw [regStore_eq]
    exact hs.of_kept ⟨rfl, rfl, rfl, rfl⟩ fun _ _ _ h => h
  case command =>
    intro c w s _ ⟨hm, hs⟩
    refine ⟨?_, (hs.of_kept ⟨rfl, rfl, rfl, rfl⟩ fun _ _ _ h => h : TableInv (accept w s)).commandRule c⟩
    rw [commandRule_eq]
    exact { hm with }
  case sequencer =>
    exact fun _ ⟨hm, hs⟩ => ⟨sequencerKeeps_memoryInv.sequencerStep hm, hs.sequencerStep hm.table_wf⟩

end Sys2Proof.Machine
end

section
/-! The long division and the CRC register compute one remainder (spec/40_crc_engine.md R172 to R175, R200 to R203): the
remainder of a number, read as a polynomial over GF(2), by the generator polynomial x^n + P. -/

namespace Sys2Proof.Machine

open Sys2Proof

/-! ### One shift of the register -/

/-- Bits beside each other: XOR is OR. -/
theorem shiftLeft_or_eq_xor {i b : Nat} (hb : b < 2 ^ i) (a : Nat) : a <<< i ||| b = a <<< i ^^^ b := by
  apply Nat.eq_of_testBit_eq
  intro j
  rw [Nat.testBit_or, Nat.testBit_xor, Nat.testBit_shiftLeft]
  by_cases hj : i ≤ j
  · rw [Nat.testBit_lt_two_pow (lt_of_lt_of_le hb (Nat.pow_le_pow_right (by decide) hj)), Bool.or_false, Bool.xor_false]
  · rw [decide_eq_false hj, Bool.false_and, Bool.false_or, Bool.false_xor]

theorem and_mask (x W : Nat) : x &&& mask W = x % 2 ^ W := Nat.and_two_pow_sub_one_eq_mod x W

@[simp] theorem crcShiftWide_zero (W P : Nat) : crcShiftWide W P 0 = 0 := by simp [crcShiftWide]

/-- A shift whose leading bit is 0 only shifts (40_crc_engine R173). -/
theorem crcShiftWide_of_lt {m r : Nat} (h : r < 2 ^ m) (P : Nat) : crcShiftWide (m + 1) P r = r <<< 1 := by
  have hlt : r <<< 1 < 2 ^ (m + 1) := by rw [Nat.shiftLeft_eq, Nat.pow_succ]; omega
  rw [crcShiftWide, Nat.add_sub_cancel, Nat.testBit_lt_two_pow h, and_mask, Nat.mod_eq_of_lt hlt]
  rfl

/-- A shift of the leading bit alone leaves the polynomial (R173). -/
theorem crcShiftWide_two_pow (m P : Nat) : crcShiftWide (m + 1) P (1 <<< m) = P := by
  have htop : (1 <<< m).testBit m = true := by simp [Nat.testBit_shiftLeft]
  rw [crcShiftWide, Nat.add_sub_cancel, htop, and_mask, ← Nat.shiftLeft_add, Nat.one_shiftLeft, Nat.mod_self]
  simp

/-- The shift is linear over GF(2). -/
theorem crcShiftWide_xor (W P x y : Nat) :
    crcShiftWide W P (x ^^^ y) = crcShiftWide W P x ^^^ crcShiftWide W P y := by
  simp only [crcShiftWide, Nat.testBit_xor, Nat.shiftLeft_xor_distrib, Nat.and_xor_distrib_right]
  cases x.testBit (W - 1) <;> cases y.testBit (W - 1) <;> simp [Nat.xor_comm, Nat.xor_left_comm]

theorem crcShiftWide_iterate_zero (W P k : Nat) : (crcShiftWide W P)^[k] 0 = 0 :=
  Function.iterate_fixed (crcShiftWide_zero W P) k

/-- A register k bits wider, its low k bits 0, shifts as the narrow one does. -/
theorem crcShiftWide_shiftLeft (m P r k : Nat) :
    crcShiftWide (m + 1 + k) (P <<< k) (r <<< k) = crcShiftWide (m + 1) P r <<< k := by
  have hbit : (r <<< k).testBit (m + 1 + k - 1) = r.testBit m := by
    rw [show m + 1 + k - 1 = m + k by omega, Nat.testBit_shiftLeft]
    simp
  have hlow : r <<< k <<< 1 % 2 ^ (m + 1 + k) = (r <<< 1 % 2 ^ (m + 1)) <<< k := by
    rw [← Nat.shiftLeft_add, Nat.add_comm k 1, Nat.shiftLeft_add, Nat.shiftLeft_eq _ k, Nat.pow_add _ _ k,
      Nat.mul_mod_mul_right, ← Nat.shiftLeft_eq _ k]
  simp only [crcShiftWide, hbit, and_mask, hlow, Nat.add_sub_cancel]
  split
  · rw [Nat.shiftLeft_xor_distrib]
  · rfl

/-! ### The remainder by the generator polynomial -/

/-- The remainder of w by x^n + P over GF(2): w's bits, the leading one first, shifted through a register of n bits. -/
def polyMod (n P w : Nat) : Nat :=
  if w = 0 then 0 else crcShiftWide n P (polyMod n P (w / 2)) ^^^ (w % 2)
termination_by w
decreasing_by omega

@[simp] theorem polyMod_zero (n P : Nat) : polyMod n P 0 = 0 := by rw [polyMod, if_pos rfl]

theorem polyMod_div_two (n P w : Nat) :
    polyMod n P w = crcShiftWide n P (polyMod n P (w / 2)) ^^^ (w % 2) := by
  by_cases hw : w = 0
  · simp [hw]
  · rw [polyMod, if_neg hw]

/-- A number from its bits but the last, and the last. -/
theorem div_two_xor_mod_two (w : Nat) : (w / 2) <<< 1 ^^^ (w % 2) = w := by
  have hlt : w % 2 < 2 ^ 1 := Nat.mod_lt w (by decide)
  rw [← shiftLeft_or_eq_xor hlt, ← Nat.shiftLeft_add_eq_or_of_lt hlt, Nat.shiftLeft_eq]
  omega

theorem polyMod_xor (n P x y : Nat) : polyMod n P (x ^^^ y) = polyMod n P x ^^^ polyMod n P y := by
  induction x using Nat.strong_induction_on generalizing y with
  | _ x ih =>
    by_cases hx : x = 0
    · simp [hx]
    · have hmod : (x ^^^ y) % 2 = x % 2 ^^^ y % 2 := Nat.xor_mod_two_pow (n := 1)
      rw [polyMod_div_two, Nat.xor_div_two, hmod, ih (x / 2) (by omega), crcShiftWide_xor, polyMod_div_two n P x,
        polyMod_div_two n P y]
      simp only [Nat.xor_assoc, Nat.xor_left_comm]

theorem polyMod_shiftLeft (n P w k : Nat) : polyMod n P (w <<< k) = (crcShiftWide n P)^[k] (polyMod n P w) := by
  induction k with
  | zero => rfl
  | succ k ih =>
    have hdiv : w <<< (k + 1) / 2 = w <<< k := by
      rw [Nat.shiftLeft_succ]; omega
    have hmod : w <<< (k + 1) % 2 = 0 := by
      rw [Nat.shiftLeft_succ]; omega
    rw [polyMod_div_two, hdiv, hmod, ih, Nat.xor_zero, Function.iterate_succ_apply']

/-- A number of at most n bits is its own remainder. -/
theorem polyMod_of_lt {m w : Nat} (h : w < 2 ^ (m + 1)) (P : Nat) : polyMod (m + 1) P w = w := by
  induction w using Nat.strong_induction_on with
  | _ w ih =>
    by_cases hw : w = 0
    · simp [hw]
    · have hhalf : w / 2 < 2 ^ m := by rw [Nat.pow_succ] at h; omega
      rw [polyMod_div_two, ih (w / 2) (by omega) (by omega), crcShiftWide_of_lt hhalf, div_two_xor_mod_two]

/-- The divisor leaves no remainder (40_crc_engine R201). -/
theorem polyMod_divisor {m P : Nat} (hP : P < 2 ^ (m + 1)) : polyMod (m + 1) P (divisor (m + 1) P .generator) = 0 := by
  have hone : 1 <<< m < 2 ^ (m + 1) := by
    rw [Nat.one_shiftLeft]; exact Nat.pow_lt_pow_right (by decide) (Nat.lt_succ_self m)
  calc polyMod (m + 1) P (1 <<< (m + 1) ||| P)
      = polyMod (m + 1) P (1 <<< m <<< 1) ^^^ polyMod (m + 1) P P := by
        rw [shiftLeft_or_eq_xor hP, polyMod_xor, Nat.shiftLeft_add]
    _ = crcShiftWide (m + 1) P (1 <<< m) ^^^ P := by
        rw [polyMod_shiftLeft, polyMod_of_lt hone, polyMod_of_lt hP]; rfl
    _ = 0 := by rw [crcShiftWide_two_pow, Nat.xor_self]

/-- The remainder in a register k bits wider, its low k bits 0. -/
theorem polyMod_wider (m P k w : Nat) :
    polyMod (m + 1 + k) (P <<< k) (w <<< k) = polyMod (m + 1) P w <<< k := by
  induction w using Nat.strong_induction_on with
  | _ w ih =>
    by_cases hw : w = 0
    · simp [hw]
    · have hlast : (w % 2) <<< k < 2 ^ (m + k + 1) := by
        have hbit : w % 2 < 2 ^ (m + 1) :=
          lt_of_lt_of_le (Nat.mod_lt w (by decide)) (Nat.le_self_pow (Nat.succ_ne_zero m) 2)
        rw [Nat.shiftLeft_eq, Nat.add_right_comm, Nat.pow_add]
        exact Nat.mul_lt_mul_of_pos_right hbit (Nat.two_pow_pos k)
      have hsplit : w <<< k = (w / 2) <<< k <<< 1 ^^^ (w % 2) <<< k := by
        rw [← Nat.shiftLeft_add, Nat.add_comm k 1, Nat.shiftLeft_add, ← Nat.shiftLeft_xor_distrib, div_two_xor_mod_two]
      have hrest : polyMod (m + 1 + k) (P <<< k) ((w % 2) <<< k) = (w % 2) <<< k := by
        rw [Nat.add_right_comm]; exact polyMod_of_lt hlast _
      rw [hsplit, polyMod_xor, polyMod_shiftLeft, ih (w / 2) (by omega), hrest, Function.iterate_one,
        crcShiftWide_shiftLeft, ← Nat.shiftLeft_xor_distrib, ← polyMod_div_two]

/-! ### The long division -/

theorem polyMod_ldStep {m P : Nat} (hP : P < 2 ^ (m + 1)) (w : Nat) :
    polyMod (m + 1) P (ldStep (divisor (m + 1) P .generator) w) = polyMod (m + 1) P w := by
  rw [ldStep, polyMod_xor, polyMod_shiftLeft, polyMod_divisor hP, crcShiftWide_iterate_zero, Nat.xor_zero]

/-- A division step of a number of more than n bits shortens it (R202). -/
theorem ldStep_generator_lt {n P w k : Nat} (hP : P < 2 ^ n) (hw : 2 ^ n ≤ w) (hk : w < 2 ^ (k + 1)) :
    ldStep (divisor n P .generator) w < 2 ^ k := by
  have hD := bitLen_generator hP
  have hlong : n < bitLen w := by
    rw [← Nat.pow_lt_pow_iff_right (a := 2) (by decide)]
    exact lt_of_le_of_lt hw (bitLen_lt w)
  have hshort : bitLen w ≤ k + 1 := bitLen_le hk
  calc ldStep (divisor n P .generator) w < 2 ^ (bitLen w - 1) := ldStep_lt (by omega) (by omega) (by omega)
    _ ≤ 2 ^ k := Nat.pow_le_pow_right (by decide) (by omega)

/-- LD's loop ends within its bound, in the remainder (R200, R202). -/
theorem ldLoop_eq_polyMod {m P : Nat} (hP : P < 2 ^ (m + 1)) (fuel : Nat) :
    ∀ w, w < 2 ^ (m + 1 + fuel) →
      ldLoop (m + 1) (divisor (m + 1) P .generator) fuel w = polyMod (m + 1) P w := by
  induction fuel with
  | zero => exact fun w hw => (polyMod_of_lt hw P).symm
  | succ fuel ih =>
    intro w hw
    rw [ldLoop]
    split
    · rename_i hn
      rw [ih _ (ldStep_generator_lt hP hn hw), polyMod_ldStep hP]
    · rename_i hn
      exact (polyMod_of_lt (Nat.not_le.1 hn) P).symm

theorem longDivide_eq_polyMod {n P : Nat} (hn : 0 < n) (hP : P < 2 ^ n) (payload chk : Nat) :
    longDivide payload chk n P .generator = polyMod n P (ldStart payload chk n) := by
  obtain ⟨m, rfl⟩ : ∃ m, n = m + 1 := ⟨n - 1, by omega⟩
  refine ldLoop_eq_polyMod hP _ _ (lt_of_lt_of_le (bitLen_lt _) (Nat.pow_le_pow_right (by decide) ?_))
  exact Nat.le_add_left _ _

theorem polyMod_ldStart {n P chk : Nat} (hn : 0 < n) (hchk : chk < 2 ^ n) (payload : Nat) :
    polyMod n P (ldStart payload chk n) = chk ^^^ polyMod n P (payload <<< n) := by
  obtain ⟨m, rfl⟩ : ∃ m, n = m + 1 := ⟨n - 1, by omega⟩
  rw [ldStart, shiftLeft_or_eq_xor hchk, polyMod_xor, polyMod_of_lt hchk, Nat.xor_comm]

/-! ### The CRC register -/

/-- A message byte takes the register from the remainder of the bytes so far to that of one byte more (R173). -/
theorem crcByteWide_polyMod {W : Nat} (hW : 8 ≤ W) (P v : Nat) (b : Byte) :
    crcByteWide (polyMod W P (v <<< W)) b W P = polyMod W P ((v <<< 8 ||| b.toNat) <<< W) := by
  obtain ⟨k, rfl⟩ : ∃ k, W = k + 7 + 1 := ⟨W - 8, by omega⟩
  have hb : b.toNat <<< k < 2 ^ (k + 7 + 1) := by
    rw [Nat.shiftLeft_eq, Nat.add_assoc, Nat.add_comm k, Nat.pow_add]
    exact Nat.mul_lt_mul_of_pos_right b.isLt (Nat.two_pow_pos k)
  have hsplit : (v <<< 8 ||| b.toNat) <<< (k + 7 + 1) = (v <<< (k + 7 + 1) ^^^ b.toNat <<< k) <<< 8 := by
    rw [shiftLeft_or_eq_xor b.isLt, Nat.shiftLeft_xor_distrib, Nat.shiftLeft_xor_distrib]
    simp only [← Nat.shiftLeft_add]
    rw [Nat.add_comm 8]
  rw [hsplit, polyMod_shiftLeft _ _ (_ ^^^ _), polyMod_xor, polyMod_of_lt hb]
  rfl

theorem foldl_crcByteWide {W : Nat} (hW : 8 ≤ W) (P : Nat) (B : List Byte) :
    B.foldl (fun r b => crcByteWide r b W P) 0 = polyMod W P (beValue B <<< W) := by
  calc B.foldl (fun r b => crcByteWide r b W P) 0
      = B.foldl (fun r b => crcByteWide r b W P) (polyMod W P (0 <<< W)) := by rw [Nat.zero_shiftLeft, polyMod_zero]
    _ = polyMod W P (beValue B <<< W) :=
      List.foldl_hom (fun v => polyMod W P (v <<< W)) (g₁ := fun v (b : Byte) => v <<< 8 ||| b.toNat)
        (crcByteWide_polyMod hW P)

/-- The narrow algorithm is the wide one at width 8, the polynomial in the upper nibble (R174). -/
theorem crcByte4_eq_crcByteWide (r : Nat) (b : Byte) (P : Nat) : crcByte4 r b P = crcByteWide r b 8 (P <<< 4) := rfl

/-- The CRC of a byte string is the remainder of its number, n bits up (R172). -/
theorem crcBits_eq_polyMod {n P : Nat} (h : cfgLegal n P = true) (B : List Byte) :
    crcBits B n P = polyMod n P (beValue B <<< n) := by
  obtain ⟨rfl | ⟨hn, -⟩, -⟩ := (cfgLegal_iff n P).1 h
  · have hfold : B.foldl (fun r b => crcByte r b 4 P) 0 = polyMod 4 P (beValue B <<< 4) <<< 4 :=
      calc B.foldl (fun r b => crcByteWide r b 8 (P <<< 4)) 0
          = polyMod 8 (P <<< 4) (beValue B <<< 4 <<< 4) := by
            rw [foldl_crcByteWide (Nat.le_refl 8), ← Nat.shiftLeft_add]
        _ = polyMod 4 P (beValue B <<< 4) <<< 4 := polyMod_wider 3 P 4 _
    rw [crcBits, hfold, crcOut, if_pos rfl, Nat.shiftLeft_shiftRight]
  · have hne : n ≠ 4 := by omega
    simp only [crcBits, crcOut, crcByte, if_neg hne]
    exact foldl_crcByteWide hn P B

/-- Settles O21: both are remainders by the generator polynomial of the payload's number, n bits up; the division has
the checksum in the low n bits besides. -/
theorem longDivisionAgreesWithCrc : Obligations.LongDivisionAgreesWithCrc := by
  intro B chk n P hlegal hchk
  obtain ⟨hn, hP⟩ := (cfgLegal_iff n P).1 hlegal
  have hpos : 0 < n := by omega
  have hrem : longDivide (beValue B) chk n P .generator = chk ^^^ crcBits B n P := by
    rw [longDivide_eq_polyMod hpos hP, polyMod_ldStart hpos hchk, crcBits_eq_polyMod hlegal]
  refine ⟨hrem, ?_⟩
  rw [ldPass, hrem, beq_iff_eq, Nat.xor_eq_zero_iff]

end Sys2Proof.Machine
end

section
/-! The short commands of the CRC engine (spec/40_crc_engine.md R170, R177 to R181, R190, R191), and the message they
add up to. -/

namespace Sys2Proof.Machine

open Sys2Proof

/-! ### Issue and completion at once -/

/-- The word of a command: its opcode, and its operand in IMM8 (30_encoding R140). -/
theorem commandWord_eq_or (op : Opcode) (b : Byte) :
    commandWord op b = op.number.setWidth 32 ||| (b.setWidth 32 <<< 8) := by
  apply BitVec.eq_of_getLsbD_eq
  intro i hi
  simp only [commandWord, BitVec.getLsbD_append, BitVec.getLsbD_or, BitVec.getLsbD_shiftLeft, BitVec.getLsbD_setWidth]
  interval_cases i <;> simp

/-- A command issued while IDLE whose rule finishes at once leaves its code and what the rule stored. -/
theorem exec_finishes {s u : State} {i : Instr} {w : Word} {rule : State → State} {code : ErrCode}
    (hidle : s.seq = .idle) (hi : exec i s = .next (issue w rule s))
    (hrule : rule (accept w (answer .done s)) = finish code u) (hu : u.seq = .idle) :
    exec i s = .next { u with err := code, done := true } := by
  rw [hi, issue_idle hidle, hrule, finish, ← hu]

/-- Settles O12: NOP finishes with nothing stored. -/
theorem nopCompletes : Obligations.NopCompletes := fun _ hidle =>
  exec_finishes (i := .nop) hidle rfl rfl hidle

/-! ### CRC_INIT -/

/-- `CfgLegal` of the configuration registers in words (R170). -/
theorem cfgLegal_toNat_iff (W : BitVec 6) (P : Word) :
    cfgLegal W.toNat P.toNat = true ↔ (W = 4 ∨ (8 ≤ W.toNat ∧ W.toNat ≤ 32)) ∧ P.toNat < 2 ^ W.toNat := by
  rw [cfgLegal_iff, ← BitVec.toNat_inj]
  rfl

theorem ruleCrcInit_legal {s : State} (hlegal : cfgLegal s.crcWidth.toNat s.crcPoly.toNat = true) :
    ruleCrcInit s = finish .ok { s with curWidth := s.crcWidth, curPoly := s.crcPoly, crcReg := 0 } :=
  if_pos hlegal

theorem ruleCrcInit_illegal {s : State} (hillegal : ¬ cfgLegal s.crcWidth.toNat s.crcPoly.toNat = true) :
    ruleCrcInit s = finish .configError s :=
  if_neg hillegal

theorem exec_crcInit_legal {s : State} (hidle : s.seq = .idle)
    (hlegal : cfgLegal s.crcWidth.toNat s.crcPoly.toNat = true) :
    exec .crcInit s = .next { s with
      cmd := 0x00000001, done := true, err := .ok, bus := .done
      curWidth := s.crcWidth, curPoly := s.crcPoly, crcReg := 0 } :=
  exec_finishes hidle rfl (ruleCrcInit_legal hlegal) hidle

theorem exec_crcInit_illegal {s : State} (hidle : s.seq = .idle)
    (hillegal : ¬ cfgLegal s.crcWidth.toNat s.crcPoly.toNat = true) :
    exec .crcInit s = .next { s with cmd := 0x00000001, done := true, err := .configError, bus := .done } :=
  exec_finishes hidle rfl (ruleCrcInit_illegal hillegal) hidle

/-- Settles O14, by whether the configuration is legal. -/
theorem crcInitLatchesOrRefuses : Obligations.CrcInitLatchesOrRefuses := by
  intro s hidle
  rw [← cfgLegal_toNat_iff]
  exact ⟨exec_crcInit_legal hidle, exec_crcInit_illegal hidle⟩

/-! ### CRC_UPD_BIT -/

/-- `crc_reg` at a wide width is its own masked value (R68). -/
theorem EngineInv.crcReg_and_mask {s : State} (hs : EngineInv s) (hW : s.curWidth ≠ 4) :
    s.crcReg.toNat &&& mask s.curWidth.toNat = s.crcReg.toNat := by
  rw [and_mask, Nat.mod_eq_of_lt (hs.wide hW)]

/-- At width 4 `crc_reg` fits its low 8 bits (R176). -/
theorem EngineInv.crcReg_low {s : State} (hs : EngineInv s) (hW : s.curWidth = 4) :
    (s.crcReg.extractLsb' 0 8).toNat = s.crcReg.toNat := by
  obtain ⟨hlt, -⟩ := hs.narrow hW
  rw [BitVec.extractLsb'_toNat, Nat.shiftRight_zero, Nat.mod_eq_of_lt hlt]

/-- A message byte takes `crc_reg` on by the algorithm of its width (R179). -/
theorem EngineInv.crcRegBit_eq {s : State} (hs : EngineInv s) (b : Byte) :
    crcRegBit s b = BitVec.ofNat 32
      (if s.curWidth = 4 then crcByte4 s.crcReg.toNat b s.curPoly.toNat
       else crcByteWide s.crcReg.toNat b s.curWidth.toNat s.curPoly.toNat) := by
  unfold crcRegBit
  by_cases hW : s.curWidth = 4
  · rw [if_pos hW, if_pos hW, hs.crcReg_low hW]
  · rw [if_neg hW, if_neg hW, hs.crcReg_and_mask hW]

theorem exec_crcUpdBit_idle {s : State} (hidle : s.seq = .idle) (b : Byte) :
    exec (.crcUpdBit b) s = .next { s with
      cmd := commandWord .crcUpdBit b, done := true, err := .ok, bus := .done, crcReg := crcRegBit s b } :=
  exec_finishes (rule := ruleCrcUpdBit b) hidle rfl rfl hidle

/-- Settles O15: within EngineInv the masks of `crcRegBit` take nothing away. -/
theorem crcUpdBitFeedsByte : Obligations.CrcUpdBitFeedsByte := by
  intro s b hidle hs
  rw [exec_crcUpdBit_idle hidle, commandWord_eq_or, hs.crcRegBit_eq]
  rfl

/-! ### CRC_UPD_TBL -/

theorem tagMatches_iff (s : State) :
    tagMatches s = true ↔ s.tblValid = true ∧ s.tblWidth = s.curWidth ∧ s.tblPoly = s.curPoly := by
  simp only [tagMatches, Bool.and_eq_true, beq_iff_eq, and_assoc]

theorem EngineInv.crcRegTbl_eq {s : State} (hs : EngineInv s) (hW : s.curWidth ≠ 4) (b : Byte) :
    crcRegTbl s b =
      BitVec.ofNat 32 (crcTblStep s.crcReg.toNat b s.curWidth.toNat (fun i => (tableEntry s i).toNat)) := by
  rw [crcRegTbl, hs.crcReg_and_mask hW]

/-- CRC_UPD_TBL is refused at width 4, whatever the table (R191). -/
theorem ruleCrcUpdTbl_narrow {s : State} (hW : s.curWidth = 4) (b : Byte) :
    ruleCrcUpdTbl b s = finish .configError s :=
  if_pos hW

theorem ruleCrcUpdTbl_otherTag {s : State} (hW : s.curWidth ≠ 4) (htag : ¬ tagMatches s = true) (b : Byte) :
    ruleCrcUpdTbl b s = finish .tableInvalid s := by
  rw [ruleCrcUpdTbl, if_neg hW, if_neg htag]

theorem ruleCrcUpdTbl_ownTag {s : State} (hW : s.curWidth ≠ 4) (htag : tagMatches s = true) (b : Byte) :
    ruleCrcUpdTbl b s = finish .ok { s with crcReg := crcRegTbl s b } := by
  rw [ruleCrcUpdTbl, if_neg hW, if_pos htag]

/-- Settles O16, by the three outcomes in their order: width 4, another table's tag, the message's own. -/
theorem crcUpdTblFeedsByteOrRefuses : Obligations.CrcUpdTblFeedsByteOrRefuses := by
  intro s b hidle hs
  have hword : commandWord .crcUpdTbl b = 0x00000003 ||| (b.setWidth 32 <<< 8) := commandWord_eq_or .crcUpdTbl b
  rw [← tagMatches_iff, ← hword]
  refine ⟨fun hW => ?width4, fun hW htag => ?otherTag, fun hW htag => ?ownTag⟩
  case width4 => exact exec_finishes hidle rfl (ruleCrcUpdTbl_narrow (s := accept _ (answer .done s)) hW b) hidle
  case otherTag =>
    exact exec_finishes hidle rfl (ruleCrcUpdTbl_otherTag (s := accept _ (answer .done s)) hW htag b) hidle
  case ownTag =>
    rw [← hs.crcRegTbl_eq hW]
    exact exec_finishes hidle rfl (ruleCrcUpdTbl_ownTag (s := accept _ (answer .done s)) hW htag b) hidle

/-! ### A message -/

/-- A message byte takes the number in `crc_reg` one byte on (R172, R179). -/
theorem EngineInv.crcRegBit_toNat {s : State} (hs : EngineInv s) (b : Byte) :
    (crcRegBit s b).toNat = crcByte s.crcReg.toNat b s.curWidth.toNat s.curPoly.toNat := by
  by_cases hW : s.curWidth = 4
  · have hP : s.curPoly.toNat < 16 := by simpa [hW] using hs.poly_lt
    have hlt := crcByte4_lt hP s.crcReg.toNat b
    rw [hs.crcRegBit_eq, if_pos hW, crcByte, if_pos (by rw [hW]; rfl), BitVec.toNat_ofNat, Nat.mod_eq_of_lt (by omega)]
  · have hne : s.curWidth.toNat ≠ 4 := fun h => hW (BitVec.eq_of_toNat_eq h)
    rw [hs.crcRegBit_eq, if_neg hW, crcByte, if_neg hne, hs.toNat_ofNat (crcByteWide_lt hs.poly_lt _ b)]

/-- Message bytes fed by CRC_UPD_BIT take `crc_reg` on through the bytes, under the same latched configuration. -/
theorem runInstrs_crcUpdBit (B : List Byte) :
    ∀ {s : State}, s.seq = .idle → EngineInv s →
      ∃ t, runInstrs (B.map .crcUpdBit) s = some t ∧ EngineInv t ∧ t.curWidth = s.curWidth ∧
        t.crcReg.toNat = B.foldl (fun r b => crcByte r b s.curWidth.toNat s.curPoly.toNat) s.crcReg.toNat := by
  induction B with
  | nil => exact fun {s} _ hs => ⟨s, rfl, hs, rfl, rfl⟩
  | cons b B ih =>
    intro s hidle hs
    obtain ⟨t, hrun, ht, hW, hreg⟩ := ih (s := { s with
      cmd := commandWord .crcUpdBit b, done := true, err := .ok, bus := .done, crcReg := crcRegBit s b }) hidle
      ((engineInv_crcRegBit hs b).congr rfl rfl rfl)
    refine ⟨t, ?_, ht, hW, ?_⟩
    · rw [List.map_cons, runInstrs, exec_crcUpdBit_idle hidle]
      exact hrun
    · rw [hreg, List.foldl_cons, ← hs.crcRegBit_toNat]

/-- CRC_RESULT is the CRC's result form of `crc_reg` (R47, R175). -/
theorem EngineInv.crcResult_eq_crcOut {s : State} (hs : EngineInv s) :
    (crcResult s).toNat = crcOut s.crcReg.toNat s.curWidth.toNat := by
  rw [crcResult_toNat hs, crcOut, Nat.shiftRight_eq_div_pow]
  simp only [← BitVec.toNat_inj]
  rfl

/-- Settles O17: CRC_INIT starts `crc_reg` at 0 under the configuration it latches, and each byte takes it one on. -/
theorem crcResultOfMessage : Obligations.CrcResultOfMessage := by
  intro s B hidle hlegal
  obtain ⟨t, hrun, ht, hW, hreg⟩ := runInstrs_crcUpdBit B (s := { s with
    cmd := 0x00000001, done := true, err := .ok, bus := .done
    curWidth := s.crcWidth, curPoly := s.crcPoly, crcReg := 0 }) hidle
    ((engineInv_latched hlegal).congr rfl rfl rfl)
  have hresult : (crcResult t).toNat = crcBits B s.crcWidth.toNat s.crcPoly.toNat := by
    rw [ht.crcResult_eq_crcOut, hW, hreg]
    rfl
  refine ⟨t, ?_, hresult, ?_⟩
  · rw [runInstrs, exec_crcInit_legal hidle hlegal]
    exact hrun
  · rintro rfl
    apply BitVec.eq_of_toNat_eq
    rw [regValue, hresult]
    simp [crcBits, crcOut]

end Sys2Proof.Machine
end

section
/-! The long commands of the CRC engine run to their end (spec/40_crc_engine.md R185, R186, R200, R205;
spec/70_reset_and_hazards.md R362; log 2). -/

namespace Sys2Proof.Machine

open Sys2Proof

/-! ### Acceptance -/

/-- A command issued while IDLE that its rule starts. -/
theorem exec_starts {s u : State} {i : Instr} {w : Word} {rule : State → State} {c : Running} (hidle : s.seq = .idle)
    (hi : exec i s = .next (issue w rule s)) (hrule : rule (accept w (answer .done s)) = start c u) :
    exec i s = .next { u with seq := .run c } := by
  rw [hi, issue_idle hidle, hrule, start]

/-! ### TBL_BUILD -/

theorem ruleTblBuild_legal {s : State} (hlegal : cfgLegal s.crcWidth.toNat s.crcPoly.toNat = true) :
    ruleTblBuild s = start (.tblBuild s.crcWidth s.crcPoly 0) { s with tblValid := false } :=
  if_pos hlegal

theorem ruleTblBuild_illegal {s : State} (hillegal : cfgLegal s.crcWidth.toNat s.crcPoly.toNat = false) :
    ruleTblBuild s = finish .configError s :=
  if_neg (Bool.eq_false_iff.1 hillegal)

theorem sequencerStep_tblBuild {s : State} {W : BitVec 6} {P : Word} {i : Nat} (h : s.seq = .run (.tblBuild W P i)) :
    sequencerStep s = tblBuildStep W P i s := by
  simp only [sequencerStep, h]

/-- i steps of TBL_BUILD fill entries 0 to i-1 (R185; one entry a step, log 2). -/
theorem runSequencer_tblBuild {s : State} {W : BitVec 6} {P : Word} (h : s.seq = .run (.tblBuild W P 0)) (i : Nat)
    (hi : i < Config.fscore.tblEntries) :
    runSequencer i s =
      { s with table := fillTable W.toNat P.toNat i s.table, seq := .run (.tblBuild W P i) } := by
  induction i with
  | zero => rw [← h]; rfl
  | succ i ih =>
    rw [runSequencer_add i 1, ih (by omega)]
    obtain ⟨-, hstep⟩ | ⟨hlast, -⟩ := tblBuildStep_cases W P i
      { s with table := fillTable W.toNat P.toNat i s.table, seq := .run (.tblBuild W P i) }
    · exact hstep
    · omega

/-- TBL_BUILD's steps add up to its rule (R185). -/
theorem runSequencer_wholeTblBuild {s : State} {W : BitVec 6} {P : Word} (h : s.seq = .run (.tblBuild W P 0)) :
    runSequencer Config.fscore.tblEntries s = wholeTblBuild W P s := by
  obtain ⟨i, hi⟩ : ∃ i, Config.fscore.tblEntries = i + 1 := ⟨255, rfl⟩
  obtain ⟨hlt, -⟩ | ⟨-, hstep⟩ := tblBuildStep_cases W P i
    { s with table := fillTable W.toNat P.toNat i s.table, seq := .run (.tblBuild W P i) }
  · omega
  · rw [wholeTblBuild, hi, runSequencer_add, runSequencer_tblBuild h i (by omega), runSequencer_succ, runSequencer_zero,
      sequencerStep_tblBuild rfl, hstep]
    rfl

/-- Settles O19: the 256 steps of a build fill the table of its configuration. -/
theorem tblBuildBuildsTheTable : Obligations.TblBuildBuildsTheTable := by
  intro s hidle hwf
  refine ⟨fun hlegal => ?accepted, fun hillegal => ?refused⟩
  case accepted =>
    refine ⟨_, fillTable s.crcWidth.toNat s.crcPoly.toNat Config.fscore.tblEntries s.table,
      Config.fscore.tblEntries, rfl, ?exec, ?run, fun b => ?entry⟩
    case exec => exact exec_starts hidle rfl (ruleTblBuild_legal (s := accept _ (answer .done s)) hlegal)
    case run =>
      rw [runSequencer_wholeTblBuild (W := s.crcWidth) (P := s.crcPoly) rfl, wholeTblBuild]
      -- with the number of entries written out, `rfl` would unroll the loop of `fillTable`
      generalize Config.fscore.tblEntries = n
      rfl
    case entry =>
      have hb : b.toNat < Config.fscore.tblEntries := b.isLt
      rw [fillTable_readWord _ _ _ hwf, if_pos hb, tableValue, BitVec.ofNat_toNat, BitVec.setWidth_eq]
  case refused => exact exec_finishes hidle rfl (ruleTblBuild_illegal (s := accept _ (answer .done s)) hillegal) hidle

/-! ### CRC_CHECK -/

theorem checkOperands_iff (s : State) : checkOperands s = true ↔ s.chkSum.toNat < 2 ^ s.crcWidth.toNat := by
  rw [checkOperands, Bool.and_eq_true_iff, decide_eq_true_iff]
  exact and_iff_left rfl

/-- A legal configuration and an n-bit checksum are divided (R205). -/
theorem ruleCrcCheck_accepted {s : State} (hlegal : cfgLegal s.crcWidth.toNat s.crcPoly.toNat = true)
    (hchk : s.chkSum.toNat < 2 ^ s.crcWidth.toNat) :
    ruleCrcCheck s =
      start (.crcCheck s.crcWidth s.crcPoly (ldStart s.chkPayload.toNat s.chkSum.toNat s.crcWidth.toNat))
        { s with chkPass := false } :=
  if_pos (Bool.and_eq_true_iff.2 ⟨hlegal, (checkOperands_iff _).2 hchk⟩)

theorem ruleCrcCheck_refused {s : State}
    (h : cfgLegal s.crcWidth.toNat s.crcPoly.toNat = false ∨ 2 ^ s.crcWidth.toNat ≤ s.chkSum.toNat) :
    ruleCrcCheck s = finish .configError { s with chkPass := false } := by
  refine if_neg fun hboth => ?_
  obtain ⟨hlegal, hops⟩ := Bool.and_eq_true_iff.1 hboth
  obtain hillegal | hwide := h
  · exact Bool.false_ne_true (hillegal.symm.trans hlegal)
  · exact Nat.not_lt.2 hwide ((checkOperands_iff _).1 hops)

/-- A check's end: the remainder, and whether it is 0 (R205). -/
def checkResult (rem : Nat) (s : State) : State :=
  finish (if rem = 0 then .ok else .checksumMismatch) { s with chkRem := BitVec.ofNat 32 rem, chkPass := rem == 0 }

theorem wholeCrcCheck_eq (W : BitVec 6) (P payload chk : Word) (s : State) :
    wholeCrcCheck W P payload chk s =
      checkResult (longDivide payload.toNat chk.toNat W.toNat P.toNat Config.fscore.hdrCheckVariant) s := rfl

theorem polyMod_dividedOnce {n P : Nat} (hn : 0 < n) (hP : P < 2 ^ n) (w : Nat) :
    polyMod n P (dividedOnce n P w) = polyMod n P w := by
  obtain ⟨m, rfl⟩ : ∃ m, n = m + 1 := ⟨n - 1, by omega⟩
  unfold dividedOnce
  split
  · exact polyMod_ldStep hP w
  · rfl

/-- A working value of at most n bits after a step is the remainder (R200). -/
theorem dividedOnce_eq_polyMod {n P w : Nat} (hn : 0 < n) (hP : P < 2 ^ n) (h : dividedOnce n P w < 2 ^ n) :
    dividedOnce n P w = polyMod n P w := by
  rw [← polyMod_dividedOnce hn hP]
  obtain ⟨m, rfl⟩ : ∃ m, n = m + 1 := ⟨n - 1, by omega⟩
  exact (polyMod_of_lt h P).symm

/-- A step that leaves more than n bits has shortened the working value (R202). -/
theorem dividedOnce_shorter {n P w k : Nat} (hP : P < 2 ^ n) (h : 2 ^ n ≤ dividedOnce n P w) (hw : w < 2 ^ (k + 1)) :
    dividedOnce n P w < 2 ^ k := by
  by_cases hn : 2 ^ n ≤ w
  · rw [dividedOnce, if_pos hn]
    exact ldStep_generator_lt hP hn hw
  · rw [dividedOnce, if_neg hn] at h
    exact absurd h hn

theorem sequencerStep_crcCheck {s : State} {W : BitVec 6} {P : Word} {w : Nat} (h : s.seq = .run (.crcCheck W P w)) :
    sequencerStep s = crcCheckStep W P w s := by
  simp only [sequencerStep, h]

/-- From a working value of at most n + k + 1 bits, k + 1 division steps reach the remainder (R200, R202). -/
theorem runSequencer_crcCheck {W : BitVec 6} {P : Word} (hW : 0 < W.toNat) (hP : P.toNat < 2 ^ W.toNat) (k : Nat) :
    ∀ {s : State} {w : Nat}, s.seq = .run (.crcCheck W P w) → w < 2 ^ (W.toNat + k + 1) →
      ∃ n, n ≤ k + 1 ∧ runSequencer n s = checkResult (polyMod W.toNat P.toNat w) s := by
  induction k with
  | zero =>
    intro s w hseq hw
    obtain ⟨hlong, -⟩ | ⟨hshort, hstep⟩ := crcCheckStep_cases W P w s
    · exact absurd (dividedOnce_shorter hP hlong hw) (Nat.not_lt.2 hlong)
    · refine ⟨1, Nat.le_refl 1, ?_⟩
      rw [runSequencer_succ, runSequencer_zero, sequencerStep_crcCheck hseq, hstep, dividedOnce_eq_polyMod hW hP hshort]
      rfl
  | succ k ih =>
    intro s w hseq hw
    obtain ⟨hlong, hstep⟩ | ⟨hshort, hstep⟩ := crcCheckStep_cases W P w s
    · obtain ⟨n, hn, hrun⟩ := ih (start_seq s _) (dividedOnce_shorter hP hlong hw)
      refine ⟨n + 1, Nat.succ_le_succ hn, ?_⟩
      rw [runSequencer_succ, sequencerStep_crcCheck hseq, hstep, hrun, polyMod_dividedOnce hW hP]
      rfl
    · refine ⟨1, Nat.le_add_left 1 _, ?_⟩
      rw [runSequencer_succ, runSequencer_zero, sequencerStep_crcCheck hseq, hstep, dividedOnce_eq_polyMod hW hP hshort]
      rfl

/-- CRC_CHECK's steps add up to its rule, the payload's 32 bits above the checksum's n in at most 32 (R205; one division
step a step, log 2). -/
theorem runSequencer_wholeCrcCheck {s : State} {W : BitVec 6} {P payload chk : Word}
    (hlegal : cfgLegal W.toNat P.toNat = true) (hchk : chk.toNat < 2 ^ W.toNat)
    (h : s.seq = .run (.crcCheck W P (ldStart payload.toNat chk.toNat W.toNat))) :
    ∃ n, n ≤ 32 ∧ runSequencer n s = wholeCrcCheck W P payload chk s := by
  obtain ⟨hwidth, hP⟩ := (cfgLegal_iff _ _).1 hlegal
  have hpos : 0 < W.toNat := by omega
  obtain ⟨n, hn, hrun⟩ := runSequencer_crcCheck hpos hP 31 h (ldStart_lt payload.isLt hchk)
  refine ⟨n, hn, hrun.trans ?_⟩
  rw [wholeCrcCheck_eq, ← longDivide_eq_polyMod hpos hP]
  rfl

/-- Settles O22: an accepted check runs as its rule does, and a refused one has its code at once. -/
theorem crcCheckRunsTheDivision : Obligations.CrcCheckRunsTheDivision := by
  intro s hidle
  refine ⟨fun hlegal hchk => ?accepted, fun h => ?refused⟩
  case accepted =>
    obtain ⟨n, hn, hrun⟩ := runSequencer_wholeCrcCheck hlegal hchk (payload := s.chkPayload) (s := { s with
      cmd := 0x00000005, done := false, err := .ok, bus := .done, chkPass := false
      seq := .run (.crcCheck s.crcWidth s.crcPoly
        (ldStart s.chkPayload.toNat s.chkSum.toNat s.crcWidth.toNat)) }) rfl
    refine ⟨_, n, _, rfl, ?exec, hn, rfl, hrun⟩
    exact exec_starts hidle rfl (ruleCrcCheck_accepted (s := accept _ (answer .done s)) hlegal hchk)
  case refused =>
    exact exec_finishes hidle rfl (ruleCrcCheck_refused (s := accept _ (answer .done s)) h) hidle

end Sys2Proof.Machine
end

section
/-! SYNC's steps add up to `SyncCore` (spec/41_frame_sync.md R230, R232 to R236; log 2, log 13). -/

namespace Sys2Proof.Machine

open Sys2Proof

/-! ### A step of SYNC with an answer at hand -/

theorem searchStep_candidate {r : SyncRun} (hpos : r.pos = .candidate) (s : State) :
    searchStep r s = searchCandidate r s := by
  simp only [searchStep, hpos]

theorem searchStep_header {r : SyncRun} (hpos : r.pos = .header) (s : State) : searchStep r s = searchHeader r s := by
  simp only [searchStep, hpos]

theorem sequencerStep_sync {s : State} {r : SyncRun} (h : s.seq = .run (.sync r)) : sequencerStep s = syncStep r s := by
  simp only [sequencerStep, h]

/-- A marker sends SYNC to the header read (R233). -/
theorem syncStep_marker {r : SyncRun} {s : State} {rest : List PortAnswer} (hpos : r.pos = .candidate)
    (hlt : r.reads < r.budget) (hp : s.port = .byte Config.fscore.marker :: rest) :
    syncStep r s = start (.sync { r with reads := r.reads + 1, pos := .header }) { s with port := rest } := by
  simp [syncStep, searchStep_candidate hpos, searchCandidate, hlt, portRead, hp]

/-- A valid header ends SYNC with OK, and HDR_INFO is written in full (R230, R236). -/
theorem syncStep_validHeader {r : SyncRun} {s : State} {h : Byte} {rest : List PortAnswer} (hpos : r.pos = .header)
    (hp : s.port = .byte h :: rest) (hvalid : hdrCheck h = true) :
    syncStep r s =
      finish .ok { s with syncState := .synchronized, hdr := foundInfo h r.fails r.reads, port := rest } := by
  simp [syncStep, searchStep_header hpos, searchHeader, portRead, hp, hvalid, searchFound, foundInfo]

/-- From a candidate read with budget left, two steps take a marker and a valid header, and end SYNC (R230, R233). -/
theorem runSequencer_marker_validHeader {r : SyncRun} {s : State} {h : Byte} {rest : List PortAnswer}
    (hseq : s.seq = .run (.sync r)) (hpos : r.pos = .candidate) (hlt : r.reads < r.budget)
    (hp : s.port = .byte Config.fscore.marker :: .byte h :: rest) (hvalid : hdrCheck h = true) :
    runSequencer 2 s =
      finish .ok { s with syncState := .synchronized, hdr := foundInfo h r.fails (r.reads + 1), port := rest } := by
  rw [runSequencer_succ, sequencerStep_sync hseq, syncStep_marker hpos hlt hp, runSequencer_succ,
    sequencerStep_sync (start_seq _ _), syncStep_validHeader rfl rfl hvalid]
  rfl

/-! ### How long a search lasts -/

/-- The answers a search can still take: two for each read left in its budget, and the header it awaits (R232, R233). -/
def SyncRun.answersLeft (r : SyncRun) : Nat :=
  2 * (r.budget - r.reads) +
    match r.pos with
    | .candidate => 0
    | .header => 1

theorem SyncRun.answersLeft_candidate {r : SyncRun} (hpos : r.pos = .candidate) :
    r.answersLeft = 2 * (r.budget - r.reads) := by
  simp only [SyncRun.answersLeft, hpos, Nat.add_zero]

theorem SyncRun.answersLeft_header {r : SyncRun} (hpos : r.pos = .header) :
    r.answersLeft = 2 * (r.budget - r.reads) + 1 := by
  simp only [SyncRun.answersLeft, hpos]

/-- A search step ends the search, or brings one that began with m answers left closer to its end. -/
def SearchResult.advances (m : Nat) : SearchResult → Prop
  | .searching r _ => 0 < r.answersLeft ∧ r.answersLeft < m
  | .ended _ _ => True

/-- With no answer to take while budget is left, the loop of `SyncCore` does not end (20_memory R113). -/
theorem scan_nil {budget reads : Nat} (h : reads < budget) (old : HdrInfo) (fails : Nat) :
    scan budget old reads fails [] = none := by
  rw [scan.eq_def]
  exact if_pos h

theorem searchRest_candidate_nil {r : SyncRun} {s : State} (hpos : r.pos = .candidate) (hlt : r.reads < r.budget)
    (hp : s.port = []) : searchRest r s = none := by
  simp only [searchRest, scanFrom, hpos, hp, scan_nil hlt, Option.map_none]

theorem searchRest_header_nil {r : SyncRun} {s : State} (hpos : r.pos = .header) (hp : s.port = []) :
    searchRest r s = none := by
  simp only [searchRest, scanFrom, hpos, hp, Option.map_none]

theorem searchOn_advances {r : SyncRun} {m : Nat} (h : 2 * (r.budget - r.reads) < m) (s : State) :
    (searchOn r s).advances m := by
  obtain ⟨hlt, ho⟩ | ⟨-, ho⟩ := searchOn_cases r s <;> rw [ho]
  · rw [SearchResult.advances, SyncRun.answersLeft_candidate rfl]
    dsimp only
    omega
  · trivial

/-- Where the answers do not run out, a search step takes one or ends the search. -/
theorem searchStep_advances {r : SyncRun} {s : State} (h : searchRest r s ≠ none) :
    (searchStep r s).advances r.answersLeft := by
  cases hpos : r.pos with
  | candidate =>
    rw [searchStep_candidate hpos, SyncRun.answersLeft_candidate hpos]
    obtain ⟨-, hc⟩ | ⟨hlt, hp, -⟩ | ⟨hlt, rest, -, hc⟩ | ⟨hlt, a, rest, -, -, hc⟩ := searchCandidate_cases r s
    · rw [hc]; trivial
    · exact absurd (searchRest_candidate_nil hpos hlt hp) h
    · rw [hc, SearchResult.advances, SyncRun.answersLeft_header rfl]
      dsimp only
      omega
    · rw [hc]
      exact searchOn_advances (by dsimp only; omega) _
  | header =>
    rw [searchStep_header hpos, SyncRun.answersLeft_header hpos]
    obtain ⟨hp, -⟩ | ⟨rest, -, hc⟩ | ⟨b, rest, -, -, hc⟩ | ⟨b, rest, -, -, hc⟩ := searchHeader_cases r s
    · exact absurd (searchRest_header_nil hpos hp) h
    · rw [hc]
      exact searchOn_advances (Nat.lt_succ_self _) _
    · rw [hc]; trivial
    · rw [hc]
      exact searchOn_advances (Nat.lt_succ_self _) _

/-- SYNC's steps reach the end of its rule: at most one step for each answer left to take, or the one
step of a search with none. -/
theorem runSequencer_sync {r : SyncRun} {s u : State} (hseq : s.seq = .run (.sync r))
    (hrest : commandRest s = some u) : ∃ n, n ≤ max 1 r.answersLeft ∧ runSequencer n s = u := by
  induction hm : r.answersLeft using Nat.strong_induction_on generalizing r s with
  | _ m ih =>
    have hanswered : searchRest r s ≠ none := by
      intro hnone
      rw [commandRest_of_run hseq, Running.rest, hnone] at hrest
      cases hrest
    have hadv := searchStep_advances hanswered
    have hrest' : commandRest (syncStep r s) = some u := by
      rw [commandRest_syncStep, ← commandRest_of_run hseq, hrest]
    have hrun : ∀ n, runSequencer (n + 1) s = runSequencer n (syncStep r s) := by
      intro n
      rw [runSequencer_succ, sequencerStep_sync hseq]
    obtain ⟨r', t, he, hstep⟩ | ⟨code, t, -, hstep⟩ := syncStep_cases r s <;> rw [hstep] at hrest' hrun
    · rw [he, hm] at hadv
      obtain ⟨hpos, hlt⟩ := hadv
      obtain ⟨n, hn, hu⟩ := ih _ hlt (start_seq _ _) hrest' rfl
      exact ⟨n + 1, by omega, (hrun n).trans hu⟩
    · exact ⟨1, Nat.le_max_left _ _, (hrun 0).trans (Option.some.inj ((commandRest_of_idle rfl).symm.trans hrest'))⟩

/-! ### SYNC -/

theorem ruleSync_seq (s : State) : (ruleSync s).seq = .run (.sync (searchBegin s)) := rfl

/-- SYNC is accepted while IDLE, in SEARCHING from then on (R232; log 13). -/
theorem exec_sync_idle {s : State} (hidle : s.seq = .idle) :
    exec .sync s = .next (ruleSync (accept 0x00000006 (answer .done s))) :=
  congrArg Host.Outcome.next (issue_idle hidle 0x00000006 ruleSync)

/-- Settles O24: at its acceptance SYNC's whole rule is left to do, with two answers to take for each read of the
budget. -/
theorem syncRunsSyncCore : Obligations.SyncRunsSyncCore := by
  intro s hidle
  refine ⟨ruleSync (accept 0x00000006 (answer .done s)), rfl, exec_sync_idle hidle, fun u hu => ?_⟩
  exact runSequencer_sync (ruleSync_seq _) ((commandRest_ruleSync _).trans hu)

/-- Settles O27: at its acceptance SYNC is at a candidate read, with the whole budget left. -/
theorem markerAndHeaderSynchronize : Obligations.MarkerAndHeaderSynchronize := by
  intro s h rest hidle hbudget hport hvalid
  have hseq := ruleSync_seq (accept 0x00000006 (answer .done s))
  refine ⟨_, exec_sync_idle hidle, ?_⟩
  rw [runSequencer_marker_validHeader hseq rfl hbudget hport hvalid, finish, ← hidle]
  rfl

end Sys2Proof.Machine
end

section
/-! SYNCHRONIZED is entered only on a valid header (spec/41_frame_sync.md R230). -/

namespace Sys2Proof.Machine

open Sys2Proof

/-- A search with locals r awaited a header in s, and the first answer was a valid one, taken in t. -/
def readsValidHeader (r : SyncRun) (s t : State) : Prop :=
  ∃ h rest, r.pos = .header ∧ s.port = .byte h :: rest ∧ hdrCheck h = true ∧ t.port = rest

/-! ### No instruction synchronizes -/

theorem regStore_syncState (r : Reg) (v : Word) (s : State) : (regStore r v s).syncState = s.syncState := by
  rw [regStore_eq]

/-- An accepted command leaves `sync_state`, or begins a search. -/
theorem commandRule_searching (c : Command) {s : State} (hs : s.syncState = .searching) :
    (commandRule c s).syncState = .searching := by
  cases c with
  | crcInit => obtain ⟨-, h⟩ | h := ruleCrcInit_cases s <;> rw [commandRule, h] <;> exact hs
  | crcUpdTbl b => obtain ⟨-, h⟩ | ⟨_, h⟩ := ruleCrcUpdTbl_cases b s <;> rw [commandRule, h] <;> exact hs
  | tblBuild => obtain ⟨-, h⟩ | h := ruleTblBuild_cases s <;> rw [commandRule, h] <;> exact hs
  | crcCheck => obtain ⟨-, -, h⟩ | h := ruleCrcCheck_cases s <;> rw [commandRule, h] <;> exact hs
  | sync | frame => rfl
  | _ => exact hs

theorem exec_searching {i : Instr} {s t : State} (h : exec i s = .next t) (hs : s.syncState = .searching) :
    t.syncState = .searching := by
  cases exec_effect h with
  | agents g => exact hs
  | refused g hbusy => exact hs
  | status g v hi => rw [statusWrite_eq]; exact hs
  | store g r v hidle => rw [regStore_syncState]; exact hs
  | command g c w hidle hc => exact commandRule_searching c hs

/-! ### A turn of the sequencer synchronizes on a valid header only -/

theorem tblBuildStep_syncState (W : BitVec 6) (P : Word) (i : Nat) (s : State) :
    (tblBuildStep W P i s).syncState = s.syncState := by
  obtain ⟨-, h⟩ | ⟨-, h⟩ := tblBuildStep_cases W P i s <;> rw [h] <;> rfl

theorem crcCheckStep_syncState (W : BitVec 6) (P : Word) (w : Nat) (s : State) :
    (crcCheckStep W P w s).syncState = s.syncState := by
  obtain ⟨-, h⟩ | ⟨-, h⟩ := crcCheckStep_cases W P w s <;> rw [h] <;> rfl

theorem decodeBufStep_syncState (s : State) : (decodeBufStep s).syncState = s.syncState := by
  rw [decodeBufStep, decodeBody_eq]
  rfl

theorem searchOn_syncState (r : SyncRun) (s : State) : (searchOn r s).state.syncState = s.syncState := by
  obtain ⟨-, h⟩ | ⟨-, h⟩ := searchOn_cases r s <;> rw [h] <;> rfl

theorem searchStep_syncState (r : SyncRun) (s : State) :
    (searchStep r s).state.syncState = s.syncState ∨ readsValidHeader r s (searchStep r s).state := by
  cases hpos : r.pos with
  | candidate =>
    rw [searchStep_candidate hpos]
    left
    obtain ⟨-, h⟩ | ⟨-, -, h⟩ | ⟨-, rest, -, h⟩ | ⟨-, a, rest, -, -, h⟩ := searchCandidate_cases r s <;> rw [h]
    · rfl
    · rfl
    · rfl
    · exact searchOn_syncState _ _
  | header =>
    rw [searchStep_header hpos]
    obtain ⟨-, h⟩ | ⟨rest, -, h⟩ | ⟨b, rest, hp, hvalid, h⟩ | ⟨b, rest, -, -, h⟩ := searchHeader_cases r s <;> rw [h]
    · exact .inl rfl
    · exact .inl (searchOn_syncState _ _)
    · exact .inr ⟨b, rest, hpos, hp, hvalid, rfl⟩
    · exact .inl (searchOn_syncState _ _)

section Searching

variable {s : State} (hs : s.syncState = .searching)
include hs

theorem syncStep_searching_or (r : SyncRun) :
    (syncStep r s).syncState = .searching ∨ readsValidHeader r s (syncStep r s) := by
  have hres := searchStep_syncState r s
  rw [hs] at hres
  obtain ⟨r', t, he, h⟩ | ⟨code, t, he, h⟩ := syncStep_cases r s <;> rw [h] <;> rw [he] at hres <;> exact hres

theorem frameStep_search_searching_or (r : SyncRun) :
    (frameStep (.search r) s).syncState = .searching ∨ readsValidHeader r s (frameStep (.search r) s) := by
  have hres := searchStep_syncState r s
  rw [hs] at hres
  obtain ⟨r', t, he, h⟩ | ⟨t, he, h⟩ | ⟨code, t, he, h⟩ := frameStep_search_cases r s <;> rw [h] <;> rw [he] at hres
  · exact hres
  · exact hres
  · exact .inl rfl

theorem frameStep_body_searching (k : Nat) : (frameStep (.body k) s).syncState = .searching := by
  obtain ⟨-, -, -, hsync⟩ := bodyStep_state k s
  obtain ⟨k', t, he, h⟩ | ⟨code, t, -, h⟩ := frameStep_body_cases k s <;> rw [h]
  · rw [he, hs] at hsync
    exact hsync
  · rfl

theorem decodeStep_searching (k : Nat) : (decodeStep k s).syncState = .searching := by
  obtain ⟨-, -, -, hsync⟩ := bodyStep_state k s
  obtain ⟨k', t, he, h⟩ | ⟨code, t, -, h⟩ := decodeStep_cases k s <;> rw [h]
  · rw [he, hs] at hsync
    exact hsync
  · rfl

theorem sequencerStep_searching_or :
    (sequencerStep s).syncState = .searching ∨
      ∃ r, (s.seq = .run (.sync r) ∨ s.seq = .run (.frame (.search r))) ∧ readsValidHeader r s (sequencerStep s) := by
  cases hseq : s.seq with
  | idle => rw [sequencerStep_idle hseq]; exact .inl hs
  | run c =>
    simp only [sequencerStep, hseq]
    cases c with
    | tblBuild W P i => exact .inl ((tblBuildStep_syncState W P i s).trans hs)
    | crcCheck W P w => exact .inl ((crcCheckStep_syncState W P w s).trans hs)
    | sync r => exact (syncStep_searching_or hs r).imp_right fun h => ⟨r, .inl rfl, h⟩
    | decode k => exact .inl (decodeStep_searching hs k)
    | frame p =>
      cases p with
      | search r => exact (frameStep_search_searching_or hs r).imp_right fun h => ⟨r, .inr rfl, h⟩
      | body k => exact .inl (frameStep_body_searching hs k)
    | decodeBuf => exact .inl ((decodeBufStep_syncState s).trans hs)

end Searching

/-- Settles O57, by the agent whose turn it is: only the sequencer can leave SEARCHING, by the last read of a search. -/
theorem onlyValidHeadersSynchronize : Obligations.OnlyValidHeadersSynchronize := by
  intro s t hstep hs ht
  suffices h : t.syncState = .searching ∨
      ∃ r, (s.seq = .run (.sync r) ∨ s.seq = .run (.frame (.search r))) ∧ readsValidHeader r s t by
    obtain hsearching | ⟨r, hseq, h, rest, hpos, hport, hvalid, hrest⟩ := h
    · rw [ht] at hsearching
      cases hsearching
    · exact ⟨r, h, rest, hseq, hpos, hport, hvalid, hrest⟩
  obtain ⟨-, rfl⟩ | ⟨c, rest, i, -, -, he⟩ | ⟨c, rest, e, -, -, rfl⟩ | ⟨rest, -, rfl⟩ | ⟨rest, -, rfl⟩ |
    ⟨a, rest, -, rfl⟩ | ⟨b, rest, -, rfl⟩ := step_cases hstep
  · exact sequencerStep_searching_or hs
  · exact .inl (exec_searching he hs)
  · exact .inl hs
  · rw [hostRead_status]
    exact .inl hs
  · exact sequencerStep_searching_or (s := withAgenda rest s) hs
  · exact .inl hs
  · exact .inl rfl

end Sys2Proof.Machine
end

section
/-! DECODE_BUF examines the body in FBUF, and what it finds there: the checksums, the packet's values, and a changed
trailer (spec/42_packet_decoder.md R260 to R266, R271, R278 to R285). -/

namespace Sys2Proof.Machine

open Sys2Proof

/-! ### The code of a body -/

/-- The known report codes as a list (R264). -/
theorem knownReport_iff_mem (c : Byte) : knownReport c = true ↔ c ∈ [0x01, 0x02, 0x04, 0x05, 0x08] := by
  simp [knownReport, or_assoc]

theorem bodyCode_mismatch {s : State} (h : calcCrc s ≠ receivedCrc s) : bodyCode s = .checksumMismatch := if_pos h

theorem bodyCode_unknown {s : State} (h : calcCrc s = receivedCrc s) (hk : ¬ knownReport (fbufByte s 37) = true) :
    bodyCode s = .unknownReportId := by
  rw [bodyCode, if_neg (not_not_intro h), if_neg hk]

theorem bodyCode_known {s : State} (h : calcCrc s = receivedCrc s) (hk : knownReport (fbufByte s 37) = true) :
    bodyCode s = .ok := by
  rw [bodyCode, if_neg (not_not_intro h), if_pos hk]

/-- The checksum test alone decides whether a mismatch is reported (R264). -/
theorem bodyCode_eq_checksumMismatch_iff (s : State) :
    bodyCode s = .checksumMismatch ↔ calcCrc s ≠ receivedCrc s := by
  obtain ⟨hne, h⟩ | ⟨heq, -, h⟩ | ⟨heq, -, h⟩ := bodyCode_cases s
  · exact iff_of_true h hne
  · exact iff_of_false (h ▸ nofun) (not_not_intro heq)
  · exact iff_of_false (h ▸ nofun) (not_not_intro heq)

/-! ### DECODE_BUF's one step -/

/-- A good body ends DECODE_BUF with OK and its packet (R265). -/
theorem decodeBufStep_ok {s : State} (h : bodyCode s = .ok) :
    decodeBufStep s = finish .ok (commit (recordCrcs s)) := by
  rw [decodeBufStep, decodeBody, h, if_pos rfl]

/-- A bad body ends DECODE_BUF with its code, the checksums recorded (R263, R264). -/
theorem decodeBufStep_fails {s : State} {code : ErrCode} (h : bodyCode s = code) (hcode : code ≠ .ok) :
    decodeBufStep s = finish code (recordCrcs s) := by
  rw [decodeBufStep, decodeBody, h, if_neg hcode]

theorem runSequencer_decodeBuf {s : State} (h : s.seq = .run .decodeBuf) : runSequencer 1 s = decodeBufStep s := by
  simp only [runSequencer_succ, runSequencer_zero, sequencerStep, h]

/-- DECODE_BUF is accepted while IDLE (R266). -/
theorem exec_decodeBuf_idle {s : State} (hidle : s.seq = .idle) :
    exec .decodeBuf s = .next (ruleDecodeBuf (accept 0x00000009 (answer .done s))) :=
  congrArg Host.Outcome.next (issue_idle hidle 0x00000009 ruleDecodeBuf)

/-- Settles O28: acceptance leaves FBUF, so DECODE_BUF's one step examines the body that stands in s. -/
theorem decodeBufExaminesTheBody : Obligations.DecodeBufExaminesTheBody := by
  intro s hidle
  refine ⟨ruleDecodeBuf (accept 0x00000009 (answer .done s)), calcCrc s, receivedCrc s, 1, rfl,
    exec_decodeBuf_idle hidle, rfl, rfl, fun hne => ?mismatch, fun heq hunknown => ?unknown,
    fun heq hknown => ?known⟩ <;> rw [runSequencer_decodeBuf rfl]
  case mismatch => exact decodeBufStep_fails (bodyCode_mismatch hne) nofun
  case unknown =>
    rw [← knownReport_iff_mem] at hunknown
    exact decodeBufStep_fails (bodyCode_unknown heq hunknown) nofun
  case known =>
    rw [← knownReport_iff_mem] at hknown
    exact decodeBufStep_ok (bodyCode_known heq hknown)

/-! ### The values of the packet registers -/

theorem le24_toNat (b0 b1 b2 : Byte) : (le24 b0 b1 b2).toNat = b0.toNat + 256 * b1.toNat + 65536 * b2.toNat := by
  simp only [le24, toNat_append_eq_add]
  omega

theorem le16_toNat (b0 b1 : Byte) : (le16 b0 b1).toNat = b0.toNat + 256 * b1.toNat := by
  rw [le16, toNat_append_eq_add]
  omega

/-- A 24-bit value as a signed number: bit 23 is the sign (R278, R279). -/
theorem sext32_le24_toInt (b0 b1 b2 : Byte) :
    (sext32 (le24 b0 b1 b2)).toInt =
      if (2 : Int) ^ 23 ≤ (b0.toNat + 256 * b1.toNat + 65536 * b2.toNat : Int)
      then (b0.toNat + 256 * b1.toNat + 65536 * b2.toNat : Int) - 2 ^ 24
      else (b0.toNat + 256 * b1.toNat + 65536 * b2.toNat : Int) := by
  rw [sext32, BitVec.toInt_signExtend_of_le (by decide), BitVec.toInt_eq_toNat_cond, le24_toNat]
  split <;> split <;> omega

/-- ACCURACY is the low two bits of the status byte (R282), the delay's extension the other six (R283). -/
theorem accuracy_toNat (b : Byte) : (b.extractLsb' 0 2).toNat = b.toNat % 4 := by
  rw [BitVec.extractLsb'_toNat, Nat.shiftRight_zero]

theorem delayOf_toNat (status low : Byte) : (delayOf status low).toNat = 256 * (status.toNat / 4) + low.toNat := by
  rw [delayOf, toNat_append_eq_add, BitVec.extractLsb'_toNat, Nat.shiftRight_eq_div_pow]
  omega

theorem pktInfoWord_toNat (p : Packet) :
    (pktInfoWord p).toNat =
      p.reportId.toNat + 256 * p.seqNum.toNat + 65536 * p.accuracy.toNat + 2 ^ 24 * p.sensor.toNat := by
  simp only [pktInfoWord, toNat_append_eq_add, BitVec.ofNat_eq_ofNat, BitVec.toNat_zero]
  omega

/-- PKT_DIFFj unpacks the element at offset 3j (R278). -/
theorem unpack_diff (s : State) (j : Fin 6) : (unpack s).diff[j] = element24 s (3 * j) := by
  fin_cases j <;> rfl

/-- PKT_SUMj unpacks the element at offset 18 + 3j (R279). -/
theorem unpack_sum (s : State) (j : Fin 6) : (unpack s).sum[j] = element24 s (18 + 3 * j) := by
  fin_cases j <;> rfl

/-- Settles O29, register by register from the packet a good body is unpacked to. -/
theorem packetFieldValues : Obligations.PacketFieldValues := by
  intro s hidle hok f le24
  have hend := (runSequencer_decodeBuf (s := ruleDecodeBuf (accept 0x00000009 (answer .done s))) rfl).trans
    (decodeBufStep_ok hok)
  refine ⟨_, _, 1, exec_decodeBuf_idle hidle, hend.symm, rfl, rfl, fun j => ?diff, fun j => ?sum, ?info, ?delay, ?imuXy,
    ?imuZ⟩
  case diff => exact (congrArg BitVec.toInt (unpack_diff s j)).trans (sext32_le24_toInt _ _ _)
  case sum => exact (congrArg BitVec.toInt (unpack_sum s j)).trans (sext32_le24_toInt _ _ _)
  case info =>
    refine (pktInfoWord_toNat (unpack s)).trans ?_
    rw [show (unpack s).accuracy.toNat = f 39 % 4 from accuracy_toNat _]
    rfl
  case delay => exact (BitVec.toNat_setWidth_of_le (by decide)).trans (delayOf_toNat _ _)
  case imuXy =>
    refine (toNat_append_eq_add (unpack s).imuY (unpack s).imuX).trans ?_
    simp only [unpack, le16_toNat, f]
    omega
  case imuZ => exact (BitVec.toNat_setWidth_of_le (by decide)).trans (le16_toNat _ _)

/-! ### The trailer -/

/-- The trailer's byte j is byte j of the received checksum (R262). -/
theorem byteOf_receivedCrc (s : State) {j : Nat} (hj : j < 4) : byteOf (receivedCrc s) j = fbufByte s (47 + j) := by
  obtain ⟨h0, h1, h2, h3⟩ := byteOf_le32 (fbufByte s 47) (fbufByte s 48) (fbufByte s 49) (fbufByte s 50)
  interval_cases j
  · exact h0
  · exact h1
  · exact h2
  · exact h3

/-- The checksums agree exactly when each byte of the trailer is that of the computed one (R262, R263). -/
theorem calcCrc_eq_receivedCrc_iff (s : State) :
    calcCrc s = receivedCrc s ↔ ∀ j < 4, fbufByte s (47 + j) = byteOf (calcCrc s) j := by
  refine ⟨fun h j hj => h ▸ (byteOf_receivedCrc s hj).symm, fun h => ?_⟩
  rw [← le32_byteOf (calcCrc s), ← h 0 (by decide), ← h 1 (by decide), ← h 2 (by decide), ← h 3 (by decide)]
  rfl

/-- A byte stored in the trailer is outside the payload (R261). -/
theorem calcCrc_storeFbuf_trailer {s : State} (hwf : s.fbuf.wf) (j : Nat) (b : Byte) :
    calcCrc (storeFbuf (47 + j) b s) = calcCrc s := by
  have hpayload : payload (storeFbuf (47 + j) b s) = payload s := by
    refine List.map_congr_left fun n hn => ?_
    have hlt : n < 47 := List.mem_range.1 hn
    rw [fbufByte_storeFbuf hwf, if_neg (by omega)]
  rw [calcCrc, hpayload, calcCrc]

theorem xor_shiftLeft_one_ne (b : Byte) {i : Nat} (hi : i < 8) : b ^^^ ((1 : Byte) <<< i) ≠ b := by
  have hbit : (1 : Byte) <<< i ≠ 0 := by interval_cases i <;> decide
  exact fun h => hbit (BitVec.xor_right_inj b |>.1 (h.trans BitVec.xor_zero.symm))

/-- Another byte in the trailer of a body that passes fails the checksum test. -/
theorem bodyCode_otherTrailer {s : State} (hwf : s.fbuf.wf) (hpass : calcCrc s = receivedCrc s) {j : Nat} (hj : j < 4)
    {b : Byte} (hb : b ≠ fbufByte s (47 + j)) : bodyCode (storeFbuf (47 + j) b s) = .checksumMismatch := by
  rw [bodyCode_eq_checksumMismatch_iff, Ne, calcCrc_eq_receivedCrc_iff, calcCrc_storeFbuf_trailer hwf]
  have hexists : 47 + j < Config.fscore.bodyLen := by have : Config.fscore.bodyLen = 51 := rfl; omega
  intro h
  have hsame := h j hj
  rw [fbufByte_storeFbuf hwf, if_pos ⟨rfl, hexists⟩, ← (calcCrc_eq_receivedCrc_iff s).1 hpass j hj] at hsame
  exact hb hsame

/-- Settles O30: the checksum test compares the trailer byte by byte, and a flipped bit gives another byte. -/
theorem trailerRoundTrip : Obligations.TrailerRoundTrip := by
  intro s hwf htrailer
  have hpass : calcCrc s = receivedCrc s := (calcCrc_eq_receivedCrc_iff s).2 htrailer
  exact ⟨fun h => (bodyCode_eq_checksumMismatch_iff s).1 h hpass,
    fun j hj i hi => bodyCode_otherTrailer hwf hpass hj (xor_shiftLeft_one_ne _ hi)⟩

end Sys2Proof.Machine
end

section
/-! DECODE's and FRAME's steps add up to their rules (spec/42_packet_decoder.md R267 to R270; spec/41_frame_sync.md
R232; log 2, log 13). -/

namespace Sys2Proof.Machine

open Sys2Proof

theorem sequencerStep_decode {s : State} {k : Nat} (h : s.seq = .run (.decode k)) :
    sequencerStep s = decodeStep k s := by
  simp only [sequencerStep, h]

theorem sequencerStep_frame {s : State} {p : FramePhase} (h : s.seq = .run (.frame p)) :
    sequencerStep s = frameStep p s := by
  simp only [sequencerStep, h]

/-! ### The end of DECODE and of FRAME -/

theorem decodeStep_ends_searching {k : Nat} {s : State} (hend : (decodeStep k s).seq = .idle) :
    (decodeStep k s).syncState = .searching := by
  obtain ⟨k', t, -, h⟩ | ⟨code, t, -, h⟩ := decodeStep_cases k s <;> rw [h] at hend ⊢
  · cases hend
  · rfl

theorem frameStep_ends_searching {p : FramePhase} {s : State} (hend : (frameStep p s).seq = .idle) :
    (frameStep p s).syncState = .searching := by
  cases p with
  | search r =>
    obtain ⟨r', t, -, h⟩ | ⟨t, -, h⟩ | ⟨code, t, -, h⟩ := frameStep_search_cases r s <;> rw [h] at hend ⊢
    · cases hend
    · cases hend
    · rfl
  | body k =>
    obtain ⟨k', t, -, h⟩ | ⟨code, t, -, h⟩ := frameStep_body_cases k s <;> rw [h] at hend ⊢
    · cases hend
    · rfl

/-- Settles O35: every step of the two commands either goes on or ends by `endFrame`. -/
theorem decodeAndFrameEndSearching : Obligations.DecodeAndFrameEndSearching := by
  intro s c hseq hop hend
  cases c with
  | decode k =>
    rw [sequencerStep_decode hseq] at hend ⊢
    exact decodeStep_ends_searching hend
  | frame p =>
    rw [sequencerStep_frame hseq] at hend ⊢
    exact frameStep_ends_searching hend
  | _ => simp [Running.op] at hop

/-! ### How long a body and a command last -/

/-- The answers `ReadBody` can still take from byte k on (R268), counted as in `bodyRest`. -/
def bodyAnswersLeft (k : Nat) : Nat := Config.fscore.bodyLen - (k + 1) + 1

/-- A body step ends the body, or brings one with m answers left closer to its end. -/
def BodyResult.advances (m : Nat) : BodyResult → Prop
  | .reading k _ => bodyAnswersLeft k < m
  | .ended _ _ => True

/-- With no answer to take the body does not end (20_memory R113). -/
theorem decodeRest_nil {s : State} (k : Nat) (hp : s.port = []) : decodeRest k s = none := by
  simp only [decodeRest, bodyRest, readBody, portRead, hp, Option.map_none]

/-- Where the answers do not run out, a body step takes one or ends the body. -/
theorem bodyStep_advances {k : Nat} {s : State} (h : decodeRest k s ≠ none) :
    (bodyStep k s).advances (bodyAnswersLeft k) := by
  obtain ⟨hp, -⟩ | ⟨rest, -, hb⟩ | ⟨b, rest, -, hk, hb⟩ | ⟨b, rest, -, -, hb⟩ := bodyStep_cases k s
  · exact absurd (decodeRest_nil k hp) h
  · rw [hb]; trivial
  · rw [hb, BodyResult.advances, bodyAnswersLeft, bodyAnswersLeft]
    omega
  · rw [hb]; trivial

/-- The sequencer's steps DECODE or FRAME can still take: one for each answer of its body, and for FRAME's search before
it one for each answer left, or the one step of a search with none. The other commands are not measured here. -/
def Running.stepsLeft : Running → Nat
  | .decode k => bodyAnswersLeft k
  | .frame (.search r) => max 1 r.answersLeft + bodyAnswersLeft 0
  | .frame (.body k) => bodyAnswersLeft k
  | _ => 0

theorem bodyAnswersLeft_pos (k : Nat) : 0 < bodyAnswersLeft k := Nat.succ_pos _

theorem stepsLeft_pos {c : Running} (hop : c.op = .decode ∨ c.op = .frame) : 0 < c.stepsLeft := by
  cases c with
  | decode k => exact bodyAnswersLeft_pos k
  | frame p =>
    cases p with
    | search r => exact Nat.add_pos_right _ (bodyAnswersLeft_pos 0)
    | body k => exact bodyAnswersLeft_pos k
  | _ => simp [Running.op] at hop

/-- The command has ended in t, or runs on there with fewer than m steps left. -/
def endsWithin (m : Nat) (t : State) : Prop :=
  t.seq = .idle ∨ ∃ c, t.seq = .run c ∧ (c.op = .decode ∨ c.op = .frame) ∧ c.stepsLeft < m

theorem decodeStep_endsWithin {k : Nat} {s : State} (h : decodeRest k s ≠ none) :
    endsWithin (Running.decode k).stepsLeft (decodeStep k s) := by
  have hadv := bodyStep_advances h
  obtain ⟨k', t, he, hstep⟩ | ⟨code, t, -, hstep⟩ := decodeStep_cases k s <;> rw [hstep]
  · rw [he] at hadv
    exact .inr ⟨.decode k', rfl, .inl rfl, hadv⟩
  · exact .inl rfl

theorem frameStep_body_endsWithin {k : Nat} {s : State} (h : decodeRest k s ≠ none) :
    endsWithin (Running.frame (.body k)).stepsLeft (frameStep (.body k) s) := by
  have hadv := bodyStep_advances h
  obtain ⟨k', t, he, hstep⟩ | ⟨code, t, -, hstep⟩ := frameStep_body_cases k s <;> rw [hstep]
  · rw [he] at hadv
    exact .inr ⟨.frame (.body k'), rfl, .inr rfl, hadv⟩
  · exact .inl rfl

theorem frameStep_search_endsWithin {r : SyncRun} {s : State} (h : searchRest r s ≠ none) :
    endsWithin (Running.frame (.search r)).stepsLeft (frameStep (.search r) s) := by
  have hadv := searchStep_advances h
  obtain ⟨r', t, he, hstep⟩ | ⟨t, -, hstep⟩ | ⟨code, t, -, hstep⟩ := frameStep_search_cases r s <;> rw [hstep]
  · rw [he] at hadv
    obtain ⟨hpos, hlt⟩ := hadv
    refine .inr ⟨.frame (.search r'), rfl, .inr rfl, ?_⟩
    simp only [Running.stepsLeft]
    omega
  · refine .inr ⟨.frame (.body 0), rfl, .inr rfl, ?_⟩
    simp only [Running.stepsLeft]
    omega
  · exact .inl rfl

/-- Where the answers do not run out, a step of DECODE or FRAME brings it closer to its end. -/
theorem sequencerStep_endsWithin {s : State} {c : Running} (hseq : s.seq = .run c)
    (hop : c.op = .decode ∨ c.op = .frame) (hrest : commandRest s ≠ none) :
    endsWithin c.stepsLeft (sequencerStep s) := by
  rw [commandRest_of_run hseq] at hrest
  cases c with
  | decode k =>
    rw [sequencerStep_decode hseq]
    exact decodeStep_endsWithin hrest
  | frame p =>
    rw [sequencerStep_frame hseq]
    cases p with
    | search r =>
      exact frameStep_search_endsWithin fun hnone => hrest (by rw [Running.rest, hnone, Option.bind_none])
    | body k => exact frameStep_body_endsWithin hrest
  | _ => simp [Running.op] at hop

/-- The steps of DECODE and of FRAME reach the end of their rule. -/
theorem runSequencer_commandRest {s u : State} {c : Running} (hseq : s.seq = .run c)
    (hop : c.op = .decode ∨ c.op = .frame) (hrest : commandRest s = some u) :
    ∃ n, n ≤ c.stepsLeft ∧ runSequencer n s = u := by
  induction hm : c.stepsLeft using Nat.strong_induction_on generalizing s c with
  | _ m ih =>
    have hrest' : commandRest (sequencerStep s) = some u := by
      rw [commandRest_sequencerStep ⟨c, hseq, .inr hop⟩, hrest]
    obtain hidle | ⟨c', hseq', hop', hlt⟩ := sequencerStep_endsWithin hseq hop (by rw [hrest]; nofun)
    · refine ⟨1, hm ▸ stepsLeft_pos hop, ?_⟩
      rw [commandRest_of_idle hidle] at hrest'
      exact Option.some.inj hrest'
    · obtain ⟨n, hn, hu⟩ := ih _ (hm ▸ hlt) hseq' hop' hrest' rfl
      exact ⟨n + 1, by omega, hu⟩

/-! ### DECODE and FRAME -/

/-- DECODE is accepted while IDLE, in either synchronizer state (R267). -/
theorem exec_decode_idle {s : State} (hidle : s.seq = .idle) :
    exec .decode s = .next (ruleDecode (accept 0x00000007 (answer .done s))) :=
  congrArg Host.Outcome.next (issue_idle hidle 0x00000007 ruleDecode)

/-- FRAME is accepted while IDLE, in SEARCHING from then on (R232, R269; log 13). -/
theorem exec_frame_idle {s : State} (hidle : s.seq = .idle) :
    exec .frame s = .next (ruleFrame (accept 0x00000008 (answer .done s))) :=
  congrArg Host.Outcome.next (issue_idle hidle 0x00000008 ruleFrame)

/-- Settles O31: at its acceptance DECODE's whole rule is left to do, with 51 answers to take. -/
theorem decodeRunsItsRule : Obligations.DecodeRunsItsRule := by
  intro s hidle
  refine ⟨ruleDecode (accept 0x00000007 (answer .done s)), rfl, exec_decode_idle hidle, fun u hu => ?_⟩
  exact runSequencer_commandRest (c := .decode 0) rfl (.inl rfl) ((commandRest_ruleDecode _).trans hu)

/-- Settles O33: at its acceptance FRAME's whole rule is left to do, a search of two answers for each read of the budget
and then a body. -/
theorem frameRunsItsRule : Obligations.FrameRunsItsRule := by
  intro s hidle
  refine ⟨ruleFrame (accept 0x00000008 (answer .done s)), rfl, exec_frame_idle hidle, fun u hu => ?_⟩
  exact runSequencer_commandRest (c := .frame (.search (searchBegin s))) rfl (.inr rfl)
    ((commandRest_ruleFrame _).trans hu)

/-! ### A short body -/

/-- A byte before the last is stored, and DECODE goes on (R268). -/
theorem decodeStep_byte {k : Nat} {s : State} {b : Byte} {rest : List PortAnswer} (hk : k + 1 < Config.fscore.bodyLen)
    (hp : s.port = .byte b :: rest) :
    decodeStep k s = start (.decode (k + 1)) (storeFbuf k b { s with port := rest }) := by
  simp only [decodeStep, bodyStep, portRead, hp, if_pos hk]

/-- A timeout ends DECODE with FRAME_SHORT (R268, R317). -/
theorem decodeStep_timeout {k : Nat} {s : State} {rest : List PortAnswer} (hp : s.port = .timeout :: rest) :
    decodeStep k s = endFrame .frameShort { s with port := rest } := by
  simp only [decodeStep, bodyStep, portRead, hp]

/-- FBUF, with the bytes B of a body begun in s stored from byte 0 on (R268). -/
structure HoldsBody (s : State) (B : List Byte) (m : Memory) : Prop where
  wf : m.wf
  byte : ∀ n < 51, fbufByte { s with fbuf := m } n = if h : n < B.length then B[n] else fbufByte s n

/-- One more byte of the body is stored behind the bytes it holds. -/
theorem HoldsBody.snoc {s : State} {B : List Byte} {m : Memory} (h : HoldsBody s B m) (b : Byte) :
    HoldsBody s (B ++ [b]) (m.write B.length b) where
  wf := Memory.write_wf h.wf _ _
  byte n hn := by
    have hread : fbufByte { s with fbuf := m.write B.length b } n =
        if n = B.length then b else fbufByte { s with fbuf := m } n := by
      have hexists : n < Config.fscore.bodyLen := hn
      simp only [fbufByte, if_pos hexists, Memory.read_write h.wf]
    rw [hread, h.byte n hn]
    obtain hlt | rfl | hgt := Nat.lt_trichotomy n B.length
    · simp [hlt, hlt.ne, Nat.lt_succ_of_lt hlt, List.getElem_append_left hlt]
    · simp
    · have hpast : ¬ n < (B ++ [b]).length := by simp only [List.length_append, List.length_singleton]; omega
      rw [if_neg hgt.ne', dif_neg hgt.not_gt, dif_neg hpast]

/-- DECODE takes the bytes B of its body one a step, while they are no whole body (R268; log 2). -/
theorem runSequencer_decode_bytes {s : State} (hseq : s.seq = .run (.decode 0)) (hwf : s.fbuf.wf) {B : List Byte}
    (hB : B.length < 51) {rest : List PortAnswer} (hp : s.port = B.map .byte ++ rest) :
    ∃ m, HoldsBody s B m ∧
      runSequencer B.length s = { s with fbuf := m, port := rest, seq := .run (.decode B.length) } := by
  induction B using List.reverseRecOn generalizing rest with
  | nil =>
    obtain rfl : s.port = rest := hp
    have hbytes : HoldsBody s [] s.fbuf := ⟨hwf, fun n _ => by simp⟩
    exact ⟨s.fbuf, hbytes, congrArg (fun q => { s with seq := q }) hseq⟩
  | append_singleton B b ih =>
    rw [List.length_append, List.length_singleton] at hB ⊢
    have hlt : B.length < 51 := by omega
    obtain ⟨m, hm, hrun⟩ := ih hlt (rest := .byte b :: rest) (by simpa using hp)
    refine ⟨m.write B.length b, hm.snoc b, ?_⟩
    rw [runSequencer_add, hrun, runSequencer_succ, runSequencer_zero, sequencerStep_decode rfl,
      decodeStep_byte hB rfl, storeFbuf_eq, if_pos (show B.length < Config.fscore.bodyLen from hlt)]
    rfl

/-- Settles O32: the bytes are stored one a step, and the timeout behind them ends the command. -/
theorem shortBodyEndsDecode : Obligations.ShortBodyEndsDecode := by
  intro s B rest hidle hwf hB hp
  obtain ⟨m, hm, hrun⟩ :=
    runSequencer_decode_bytes (s := ruleDecode (accept 0x00000007 (answer .done s))) rfl hwf hB hp
  refine ⟨_, _, m, exec_decode_idle hidle, rfl, ?run, ?bytes⟩ <;>
    rw [runSequencer_add, hrun, runSequencer_succ, runSequencer_zero, sequencerStep_decode rfl, decodeStep_timeout rfl]
  case run =>
    rw [endFrame, finish, ← hidle]
    rfl
  case bytes => exact hm.byte

end Sys2Proof.Machine
end

section
/-! What is left unchanged and what ends with a code (spec/60_exceptions.md): nothing happens while IDLE (R331), an
illegal word finishes at once (R311), a search without a marker times out (R314), and a running command stays in its
write set (R322). -/

namespace Sys2Proof.Machine

open Sys2Proof

/-! ### IDLE -/

/-- Settles O3: the turn is the sequencer's, and while IDLE it has nothing to do. -/
theorem idleChangesNothing : Obligations.IdleChangesNothing := by
  intro s hagenda hidle
  rw [step_empty hagenda, sequencerStep_idle hidle]

/-! ### Illegal command words -/

/-- An illegal word decodes to the instruction that stands for it (30_encoding R145, R146). -/
theorem toInstr_decodeCommand_illegal {w : Word} (hw : illegalWord w = true) :
    (decodeCommand w).toInstr = .illegalCmd w :=
  Except.ok.inj (Laws.RoundTrip.illegalCmd w hw)

/-- Settles O13: an illegal word's rule is `finish` alone, and a CMD write of the word is the same instruction. -/
theorem illegalWordFinishes : Obligations.IllegalWordFinishes := by
  intro s w hidle hw
  refine ⟨exec_finishes (i := .illegalCmd w) hidle rfl rfl hidle, ?_⟩
  rw [exec_write_cmd, toInstr_decodeCommand_illegal hw]

/-! ### A search without a marker -/

section NoMarker

variable {r : SyncRun} {s : State} {a : PortAnswer} {rest : List PortAnswer} (hpos : r.pos = .candidate)
  (ha : a ≠ .byte Config.fscore.marker)
include hpos ha

/-- An answer that is no marker, with budget left behind it, sends SYNC to the next candidate (41_frame_sync R233). -/
theorem syncStep_other (hp : s.port = a :: rest) (hlt : r.reads + 1 < r.budget) :
    syncStep r s = start (.sync { r with reads := r.reads + 1 }) { s with port := rest } := by
  have hspend : r.reads < r.budget := Nat.lt_of_succ_lt hlt
  simp only [syncStep, searchStep_candidate hpos, searchCandidate, if_pos hspend, portRead, hp, if_neg ha, searchOn,
    if_pos hlt, ← hpos]

/-- An answer that is no marker and spends the last of the budget ends SYNC with SYNC_TIMEOUT (R232, R236). -/
theorem syncStep_lastOther (hp : s.port = a :: rest) (hlast : r.reads + 1 = r.budget) :
    syncStep r s =
      finish .syncTimeout { s with
        port := rest, hdr := { s.hdr with fails := BitVec.ofNat 8 r.fails, reads := BitVec.ofNat 8 r.budget } } := by
  have hspend : r.reads < r.budget := Nat.lt_of_succ_le hlast.le
  simp only [syncStep, searchStep_candidate hpos, searchCandidate, if_pos hspend, portRead, hp, if_neg ha, searchOn,
    if_neg hlast.not_lt, searchTimeout]
  rw [hlast]

end NoMarker

/-- From a candidate read on, as many answers as the budget has left, with no marker among them, are taken one a step
and end SYNC with SYNC_TIMEOUT (R239, R314; log 2). -/
theorem runSequencer_noMarker {r : SyncRun} {s : State} {l rest : List PortAnswer} (hseq : s.seq = .run (.sync r))
    (hpos : r.pos = .candidate) (hne : l ≠ []) (hlen : r.reads + l.length = r.budget) (hp : s.port = l ++ rest)
    (hmarker : .byte Config.fscore.marker ∉ l) :
    runSequencer l.length s =
      finish .syncTimeout { s with
        port := rest, hdr := { s.hdr with fails := BitVec.ofNat 8 r.fails, reads := BitVec.ofNat 8 r.budget } } := by
  induction l generalizing r s with
  | nil => exact absurd rfl hne
  | cons a l ih =>
    obtain ⟨ha, hl⟩ := List.ne_and_not_mem_of_not_mem_cons hmarker
    rw [List.length_cons] at hlen ⊢
    rw [runSequencer_succ, sequencerStep_sync hseq]
    by_cases hnil : l = []
    · subst hnil
      exact syncStep_lastOther hpos (Ne.symm ha) hp hlen
    · have hleft := List.length_pos_of_ne_nil hnil
      have hlen' : r.reads + 1 + l.length = r.budget := by omega
      rw [syncStep_other hpos (Ne.symm ha) hp (by omega)]
      exact ih (r := { r with reads := r.reads + 1 }) (start_seq _ _) hpos hnil hlen' rfl hl

/-- Settles O26: at its acceptance SYNC is at a candidate read, with the whole budget left. -/
theorem noMarkerTimesOut : Obligations.NoMarkerTimesOut := by
  intro s l rest hidle hbudget hport hlen hmarker
  have hrun := runSequencer_noMarker (ruleSync_seq (accept 0x00000006 (answer .done s))) rfl
    (List.ne_nil_of_length_pos (hlen ▸ hbudget)) ((Nat.zero_add _).trans hlen) hport hmarker
  have hreads : BitVec.ofNat 8 (searchBegin (accept 0x00000006 (answer .done s))).budget = s.scanMax := by
    simp [searchBegin]
  refine ⟨_, exec_sync_idle hidle, ?_⟩
  rw [← hlen, hrun, hreads, finish, ← hidle]
  rfl

/-! ### What the sequencer's operations write -/

/-- A change of HDR_INFO is a change of no other register. -/
theorem regValue_hdr {r : Reg} (hr : r ≠ .hdrInfo) (h : HdrInfo) (s : State) :
    regValue r { s with hdr := h } = regValue r s := by
  cases r with
  | hdrInfo => exact absurd rfl hr
  | _ => rfl

theorem regValue_storeFbuf {r : Reg} (hr : ∀ k, r ≠ .fbuf k) (n : Nat) (b : Byte) (s : State) :
    regValue r (storeFbuf n b s) = regValue r s := by
  rw [storeFbuf_eq]
  cases r with
  | fbuf k => exact absurd rfl (hr k)
  | _ => rfl

theorem writeSet_decode_eq_false_iff (r : Reg) :
    writeSet .decode r = false ↔ (∀ k, r ≠ .fbuf k) ∧ decodeWrites r = false := by
  cases r <;> simp [writeSet, decodeWrites]

theorem writeSet_frame_eq_false_iff (r : Reg) :
    writeSet .frame r = false ↔ r ≠ .hdrInfo ∧ writeSet .decode r = false := by
  cases r <;> simp [writeSet, decodeWrites]

section WriteSet

variable {r : Reg} (hstatus : r ≠ .status)
include hstatus

/-- A command's progress, its completion and the answers taken on the way show in STATUS only. -/
theorem regValue_progress (q : SeqState) (d : Bool) (e : ErrCode) (y : SyncState) (l : List PortAnswer) (s : State) :
    regValue r { s with seq := q, done := d, err := e, syncState := y, port := l } = regValue r s := by
  cases r with
  | status => exact absurd rfl hstatus
  | _ => rfl

theorem regValue_start (c : Running) (s : State) : regValue r (start c s) = regValue r s :=
  regValue_progress hstatus _ _ _ _ _ s

theorem regValue_finish (code : ErrCode) (s : State) : regValue r (finish code s) = regValue r s :=
  regValue_progress hstatus _ _ _ _ _ s

theorem regValue_endFrame (code : ErrCode) (s : State) : regValue r (endFrame code s) = regValue r s :=
  regValue_progress hstatus _ _ _ _ _ s

theorem regValue_port (l : List PortAnswer) (s : State) : regValue r { s with port := l } = regValue r s :=
  regValue_progress hstatus _ _ _ _ _ s

theorem regValue_decodeBody (hr : decodeWrites r = false) (s : State) :
    regValue r (decodeBody s) = regValue r s := by
  rw [decodeBody_eq]
  cases r with
  | status => exact absurd rfl hstatus
  | crcRx | crcCalc | pktDiff | pktSum | pktInfo | pktDelay | pktImuXy | pktImuZ => cases hr
  | _ => rfl

/-- A search step writes HDR_INFO only (41_frame_sync R236). -/
theorem SearchEffect.regValue_state {q : SyncRun} {s : State} {res : SearchResult} (h : SearchEffect q s res)
    (hr : r ≠ .hdrInfo) : regValue r res.state = regValue r s := by
  cases h with
  | searching l q' _ => exact regValue_port hstatus l s
  | timeout l q' _ => exact (regValue_hdr hr _ _).trans (regValue_port hstatus l s)
  | found l h =>
    exact (regValue_hdr hr _ { s with syncState := .synchronized, port := l }).trans
      (regValue_progress hstatus s.seq s.done s.err .synchronized l s)

/-- A body step writes FBUF, and what the decode behind the last byte does (42_packet_decoder R267, R268). -/
theorem regValue_bodyStep (hr : writeSet .decode r = false) (k : Nat) (s : State) :
    regValue r (bodyStep k s).state = regValue r s := by
  obtain ⟨hfbuf, hdecode⟩ := (writeSet_decode_eq_false_iff r).1 hr
  obtain ⟨-, h⟩ | ⟨rest, -, h⟩ | ⟨b, rest, -, -, h⟩ | ⟨b, rest, -, -, h⟩ := bodyStep_cases k s <;>
    rw [h, BodyResult.state]
  · exact regValue_port hstatus rest s
  · rw [regValue_storeFbuf hfbuf, regValue_port hstatus]
  · rw [regValue_decodeBody hstatus hdecode, regValue_storeFbuf hfbuf, regValue_port hstatus]

/-! ### What the commands write -/

theorem regValue_tblBuildStep (hr : writeSet .tblBuild r = false) (W : BitVec 6) (P : Word) (i : Nat) (s : State) :
    regValue r (tblBuildStep W P i s) = regValue r s := by
  obtain ⟨-, h⟩ | ⟨-, h⟩ := tblBuildStep_cases W P i s <;> rw [h]
  all_goals
    cases r with
    | status => exact absurd rfl hstatus
    | table | tblInfo | tblPoly => cases hr
    | _ => rfl

theorem regValue_crcCheckStep (hr : writeSet .crcCheck r = false) (W : BitVec 6) (P : Word) (w : Nat) (s : State) :
    regValue r (crcCheckStep W P w s) = regValue r s := by
  obtain ⟨-, h⟩ | ⟨-, h⟩ := crcCheckStep_cases W P w s <;> rw [h]
  · exact regValue_start hstatus _ s
  · cases r with
    | status => exact absurd rfl hstatus
    | chkRem => cases hr
    | _ => rfl

theorem regValue_syncStep (hr : writeSet .sync r = false) (q : SyncRun) (s : State) :
    regValue r (syncStep q s) = regValue r s := by
  have hsearch := (searchStep_effect q s).regValue_state hstatus (of_decide_eq_false hr)
  obtain ⟨q', t, he, h⟩ | ⟨code, t, he, h⟩ := syncStep_cases q s <;> rw [h] <;> rw [he] at hsearch
  · exact (regValue_start hstatus _ t).trans hsearch
  · exact (regValue_finish hstatus _ t).trans hsearch

theorem regValue_decodeStep (hr : writeSet .decode r = false) (k : Nat) (s : State) :
    regValue r (decodeStep k s) = regValue r s := by
  have hbody := regValue_bodyStep hstatus hr k s
  obtain ⟨k', t, he, h⟩ | ⟨code, t, he, h⟩ := decodeStep_cases k s <;> rw [h] <;> rw [he] at hbody
  · exact (regValue_start hstatus _ t).trans hbody
  · exact (regValue_endFrame hstatus _ t).trans hbody

theorem regValue_frameStep (hr : writeSet .frame r = false) (p : FramePhase) (s : State) :
    regValue r (frameStep p s) = regValue r s := by
  obtain ⟨hhdr, hdecode⟩ := (writeSet_frame_eq_false_iff r).1 hr
  cases p with
  | search q =>
    have hsearch := (searchStep_effect q s).regValue_state hstatus hhdr
    obtain ⟨q', t, he, h⟩ | ⟨t, he, h⟩ | ⟨code, t, he, h⟩ := frameStep_search_cases q s <;> rw [h] <;>
      rw [he] at hsearch
    · exact (regValue_start hstatus _ t).trans hsearch
    · exact (regValue_start hstatus _ t).trans hsearch
    · exact (regValue_endFrame hstatus _ t).trans hsearch
  | body k =>
    have hbody := regValue_bodyStep hstatus hdecode k s
    obtain ⟨k', t, he, h⟩ | ⟨code, t, he, h⟩ := frameStep_body_cases k s <;> rw [h] <;> rw [he] at hbody
    · exact (regValue_start hstatus _ t).trans hbody
    · exact (regValue_endFrame hstatus _ t).trans hbody

theorem regValue_decodeBufStep (hr : writeSet .decodeBuf r = false) (s : State) :
    regValue r (decodeBufStep s) = regValue r s :=
  (regValue_finish hstatus _ _).trans (regValue_decodeBody hstatus hr s)

end WriteSet

/-- Settles O53, by the running command: each writes its row of R322. -/
theorem sequencerStaysInWriteSet : Obligations.SequencerStaysInWriteSet := by
  intro s c r hseq hr hstatus
  simp only [sequencerStep, hseq]
  cases c with
  | tblBuild W P i => exact regValue_tblBuildStep hstatus hr W P i s
  | crcCheck W P w => exact regValue_crcCheckStep hstatus hr W P w s
  | sync q => exact regValue_syncStep hstatus hr q s
  | decode k => exact regValue_decodeStep hstatus hr k s
  | frame p => exact regValue_frameStep hstatus hr p s
  | decodeBuf => exact regValue_decodeBufStep hstatus hr s

end Sys2Proof.Machine
end

section
/-! A reset at any time (spec/70_reset_and_hazards.md R350 to R352; log 9). -/

namespace Sys2Proof.Machine

open Sys2Proof

/-- The event says that the byte in flight is consumed, and a read attempt is in progress. -/
theorem platformReset_port_of_readsPort {s : State} (hreads : s.readsPort = true) :
    (platformReset true s).port = s.port.tail := by
  simp [platformReset, hreads]

/-- Nothing is in flight, or what is in flight stays with the byte source. -/
theorem platformReset_port_of_not_taken {takesByte : Bool} {s : State}
    (hnot : takesByte = false ∨ s.readsPort = false) : (platformReset takesByte s).port = s.port := by
  obtain hport | ⟨htakes, hreads, -⟩ := platformReset_port takesByte s
  · exact hport
  · simp [htakes, hreads] at hnot

/-- Settles O46: the step is the platform's reset behind the event, and its port is the only field the event's flag
decides. -/
theorem resetAtAnyTime : Obligations.ResetAtAnyTime := by
  intro s takesByte rest hagenda
  refine ⟨(platformReset takesByte (withAgenda rest s)).port, ?next, ?taken, ?kept⟩
  case next => exact (step_reset hagenda).trans (congrArg _ (platformReset_eq takesByte (withAgenda rest s)))
  case taken =>
    rintro rfl hreads
    exact platformReset_port_of_readsPort (s := withAgenda rest s) hreads
  case kept => exact platformReset_port_of_not_taken (s := withAgenda rest s)

end Sys2Proof.Machine
end

section
/-! The encoder and the decoder undo each other, and the command words by mask and match (spec/30_encoding.md R140 to
R147; spec/10_state.md R33). -/

namespace Sys2Proof.Machine

open Sys2Proof

/-! ### From an instruction to its encoded form and back -/

/-- Settles O4, an instruction at a time: the family RoundTrip holds of each. -/
theorem decodeOfEncode : Obligations.DecodeOfEncode
  | .nop => Laws.RoundTrip.nop
  | .crcInit => Laws.RoundTrip.crcInit
  | .crcUpdBit b => Laws.RoundTrip.crcUpdBit b
  | .crcUpdTbl b => Laws.RoundTrip.crcUpdTbl b
  | .tblBuild => Laws.RoundTrip.tblBuild
  | .crcCheck => Laws.RoundTrip.crcCheck
  | .sync => Laws.RoundTrip.sync
  | .decode => Laws.RoundTrip.decode
  | .frame => Laws.RoundTrip.frame
  | .decodeBuf => Laws.RoundTrip.decodeBuf
  | .mmioCmd a => Laws.RoundTrip.mmioCmd a
  | .mmioStatus a => Laws.RoundTrip.mmioStatus a
  | .mmioCrcCfg a => Laws.RoundTrip.mmioCrcCfg a
  | .mmioCrcPoly a => Laws.RoundTrip.mmioCrcPoly a
  | .mmioCrcResult a => Laws.RoundTrip.mmioCrcResult a
  | .mmioCrcCur a => Laws.RoundTrip.mmioCrcCur a
  | .mmioCrcCurPoly a => Laws.RoundTrip.mmioCrcCurPoly a
  | .mmioChkPayload a => Laws.RoundTrip.mmioChkPayload a
  | .mmioChkSum a => Laws.RoundTrip.mmioChkSum a
  | .mmioChkRem a => Laws.RoundTrip.mmioChkRem a
  | .mmioSyncCfg a => Laws.RoundTrip.mmioSyncCfg a
  | .mmioSensorNum a => Laws.RoundTrip.mmioSensorNum a
  | .mmioHdrInfo a => Laws.RoundTrip.mmioHdrInfo a
  | .mmioCrcRx a => Laws.RoundTrip.mmioCrcRx a
  | .mmioCrcCalc a => Laws.RoundTrip.mmioCrcCalc a
  | .mmioTblInfo a => Laws.RoundTrip.mmioTblInfo a
  | .mmioTblPoly a => Laws.RoundTrip.mmioTblPoly a
  | .mmioPktDiff0 a => Laws.RoundTrip.mmioPktDiff0 a
  | .mmioPktDiff1 a => Laws.RoundTrip.mmioPktDiff1 a
  | .mmioPktDiff2 a => Laws.RoundTrip.mmioPktDiff2 a
  | .mmioPktDiff3 a => Laws.RoundTrip.mmioPktDiff3 a
  | .mmioPktDiff4 a => Laws.RoundTrip.mmioPktDiff4 a
  | .mmioPktDiff5 a => Laws.RoundTrip.mmioPktDiff5 a
  | .mmioPktSum0 a => Laws.RoundTrip.mmioPktSum0 a
  | .mmioPktSum1 a => Laws.RoundTrip.mmioPktSum1 a
  | .mmioPktSum2 a => Laws.RoundTrip.mmioPktSum2 a
  | .mmioPktSum3 a => Laws.RoundTrip.mmioPktSum3 a
  | .mmioPktSum4 a => Laws.RoundTrip.mmioPktSum4 a
  | .mmioPktSum5 a => Laws.RoundTrip.mmioPktSum5 a
  | .mmioPktInfo a => Laws.RoundTrip.mmioPktInfo a
  | .mmioPktDelay a => Laws.RoundTrip.mmioPktDelay a
  | .mmioPktImuXy a => Laws.RoundTrip.mmioPktImuXy a
  | .mmioPktImuZ a => Laws.RoundTrip.mmioPktImuZ a
  | .mmioFbuf k a => Laws.RoundTrip.mmioFbuf k a
  | .mmioTable i a => Laws.RoundTrip.mmioTable i a
  | .mmioReserved o a => Laws.RoundTrip.mmioReserved o a
  | .illegalCmd w => Laws.RoundTrip.illegalCmd w

/-! ### Illegal command words -/

theorem opcodeOf_eq_none_iff (n : BitVec 8) : opcodeOf n = none ↔ 0x0A ≤ n.toNat := by
  rw [← Option.not_isSome_iff_eq_none, opcodeOf_isSome, decide_eq_true_iff, Nat.not_lt]

/-- An opcode takes no operand other than 0, unless it is one of the two updates (30_encoding R142). -/
theorem commandOf_eq_none_iff (op : Opcode) (b : Byte) :
    commandOf op b = none ↔ b ≠ 0 ∧ op.number ≠ 0x02 ∧ op.number ≠ 0x03 := by
  cases op <;> simp [commandOf, Opcode.number]

theorem commandOf_ne_illegal {op : Opcode} {b : Byte} {w : Word} : commandOf op b ≠ some (.illegal w) := by
  cases op <;> simp [commandOf]

/-- The illegal words by their fields (R146). -/
theorem illegalWord_iff (w : Word) :
    illegalWord w = true ↔
      rsvField w ≠ 0 ∨ 0x0A ≤ (opcField w).toNat ∨ immField w ≠ 0 ∧ opcField w ≠ 0x02 ∧ opcField w ≠ 0x03 := by
  simp only [illegalWord, rsvField, opcField, immField, Bool.or_eq_true, Bool.and_eq_true, bne_iff_ne,
    decide_eq_true_eq, or_assoc, and_assoc]

/-- The decoder calls no other word illegal than those of R146. -/
theorem illegalWord_of_decodeCommand {v w : Word} (h : decodeCommand w = .illegal v) : illegalWord w = true := by
  rw [illegalWord_iff]
  unfold decodeCommand at h
  split at h
  · rename_i hrsv
    exact .inl hrsv
  · split at h
    · rename_i hop
      exact .inr (.inl ((opcodeOf_eq_none_iff _).1 hop))
    · rename_i op hop
      cases hc : commandOf op (immField w) with
      | none => exact .inr (.inr (opcodeOf_upd _ _ hop ▸ (commandOf_eq_none_iff _ _).1 hc))
      | some c =>
        rw [hc, Option.getD_some] at h
        exact absurd (h ▸ hc) commandOf_ne_illegal

theorem decodeCommand_eq_illegal_iff (w v : Word) : decodeCommand w = .illegal v ↔ illegalWord w = true ∧ v = w := by
  constructor
  · intro h
    have hcode := encode_decodeCommand w
    rw [h] at hcode
    exact ⟨illegalWord_of_decodeCommand h, Code.cmdw.inj hcode⟩
  · rintro ⟨h, rfl⟩
    exact decodeCommand_illegal h

theorem wellFormed_decodeCommand (w : Word) : (decodeCommand w).toInstr.wellFormed = true := by
  cases hc : decodeCommand w with
  | illegal v =>
    obtain ⟨h, rfl⟩ := (decodeCommand_eq_illegal_iff w v).1 hc
    exact h
  | _ => rfl

/-! ### Decoded instructions are well-formed -/

theorem wellFormed_mmioRows : ∀ p ∈ mmioRows, ∀ a, (p.2 a).wellFormed = true := by
  simp [mmioRows, Instr.wellFormed]

/-- Below the register files every word offset is a fixed register or reserved (10_state R33). -/
theorem lookup_isSome_or_reservedOffset : ∀ k < 0x40,
    (mmioRows.lookup (BitVec.ofNat 12 (4 * k))).isSome ∨ reservedOffset (BitVec.ofNat 12 (4 * k)) := by
  decide

/-- An aligned offset at no fixed register and in no register file is reserved (R33). -/
theorem reservedOffset_of_lookup_none {o : Offset} (ho : o.toNat % 4 = 0) (hrow : mmioRows.lookup o = none)
    (hfbuf : ¬ (0x100 ≤ o.toNat ∧ o.toNat ≤ 0x130)) (htable : ¬ (0x400 ≤ o.toNat ∧ o.toNat ≤ 0x7FC)) :
    reservedOffset o = true := by
  by_cases hlow : o.toNat < 0x100
  · have hword : BitVec.ofNat 12 (4 * (o.toNat / 4)) = o := by
      rw [Nat.mul_div_cancel' (Nat.dvd_of_mod_eq_zero ho), BitVec.ofNat_toNat, BitVec.setWidth_eq]
    have h := lookup_isSome_or_reservedOffset (o.toNat / 4) (by omega)
    rw [hword, hrow] at h
    exact h.resolve_left nofun
  · exact (reservedOffset_iff o).2 ⟨ho, by omega⟩

theorem wellFormed_decodeOffset {o : Offset} (ho : o.toNat % 4 = 0) (a : Access) :
    (decodeOffset o a).wellFormed = true := by
  unfold decodeOffset
  split
  · rename_i row hrow
    obtain ⟨l₁, l₂, hl, -⟩ := List.lookup_eq_some_iff.1 hrow
    exact wellFormed_mmioRows (o, row) (by rw [hl]; simp) a
  · rename_i hrow
    split
    · rename_i hfbuf
      have hindex : (o.extractLsb' 2 4).toNat ≤ 12 := by
        rw [BitVec.extractLsb'_toNat, Nat.shiftRight_eq_div_pow]
        omega
      exact decide_eq_true hindex
    · rename_i hfbuf
      split
      · rfl
      · rename_i htable
        exact reservedOffset_of_lookup_none ho hrow hfbuf htable

theorem wellFormed_decode {c : Code} {i : Instr} (h : decode c = .ok i) : i.wellFormed = true := by
  cases c with
  | cmdw w =>
    cases h
    exact wellFormed_decodeCommand w
  | mmio a =>
    simp only [decode] at h
    split at h
    · cases h
    · split at h
      · cases h
      · rename_i halign
        cases h
        exact wellFormed_decodeOffset (not_not.1 halign) _

/-- Settles O5: the encoder undoes the decoder, and what is decoded is well-formed. -/
theorem encodeOfDecode : Obligations.EncodeOfDecode :=
  fun _ _ h => ⟨encode_decode h, wellFormed_decode h⟩

/-! ### Command words by mask and match -/

/-- A command has one word (30_encoding R147). -/
theorem decodeCommand_eq_iff {op : Opcode} {b : Byte} {c : Command} (hc : commandOf op b = some c) (w : Word) :
    decodeCommand w = c ↔ w = commandWord op b := by
  constructor
  · intro h
    have hcode := encode_decodeCommand w
    rw [h, encode_commandOf hc] at hcode
    exact (Code.cmdw.inj hcode).symm
  · rintro rfl
    rw [decodeCommand_commandWord, hc, Option.getD_some]

/-- A word beside its IMM8 (R140). -/
theorem and_mask_or_immField (w : Word) : (w &&& 0xFFFF00FF : Word) ||| (immField w).setWidth 32 <<< 8 = w := by
  apply BitVec.eq_of_getLsbD_eq
  intro i hi
  simp only [immField, BitVec.getLsbD_or, BitVec.getLsbD_and, BitVec.getLsbD_shiftLeft, BitVec.getLsbD_setWidth,
    BitVec.getLsbD_extractLsb']
  interval_cases i <;> simp

theorem commandWord_and_mask (op : Opcode) (b : Byte) :
    commandWord op b &&& 0xFFFF00FF = op.number.setWidth 32 := by
  apply BitVec.eq_of_getLsbD_eq
  intro i hi
  simp only [commandWord, BitVec.getLsbD_and, BitVec.getLsbD_append, BitVec.getLsbD_setWidth]
  interval_cases i <;> simp

/-- The word of a command in mask-and-match form: its opcode in the masked bits, its operand in IMM8 (R147). -/
theorem eq_commandWord_iff (op : Opcode) (b : Byte) (w : Word) :
    w = commandWord op b ↔ w &&& 0xFFFF00FF = op.number.setWidth 32 ∧ b = immField w := by
  constructor
  · rintro rfl
    exact ⟨commandWord_and_mask op b, (immField_commandWord op b).symm⟩
  · rintro ⟨hmasked, rfl⟩
    rw [commandWord_eq_or, ← hmasked, and_mask_or_immField]

/-- Settles O6: every command has one word, and an update's word is told by its masked bits and its operand. -/
theorem commandWordsByMask : Obligations.CommandWordsByMask := by
  intro w
  have upd : ∀ {op b c}, commandOf op b = some c →
      (decodeCommand w = c ↔ w &&& 0xFFFF00FF = op.number.setWidth 32 ∧ b = immField w) :=
    fun {op b _} hc => (decodeCommand_eq_iff hc w).trans (eq_commandWord_iff op b w)
  exact ⟨fun b => upd (op := .crcUpdBit) (b := b) rfl, fun b => upd (op := .crcUpdTbl) (b := b) rfl,
    decodeCommand_eq_iff (op := .nop) (b := 0) rfl w, decodeCommand_eq_iff (op := .crcInit) (b := 0) rfl w,
    decodeCommand_eq_iff (op := .tblBuild) (b := 0) rfl w, decodeCommand_eq_iff (op := .crcCheck) (b := 0) rfl w,
    decodeCommand_eq_iff (op := .sync) (b := 0) rfl w, decodeCommand_eq_iff (op := .decode) (b := 0) rfl w,
    decodeCommand_eq_iff (op := .frame) (b := 0) rfl w, decodeCommand_eq_iff (op := .decodeBuf) (b := 0) rfl w,
    decodeCommand_eq_illegal_iff w⟩

end Sys2Proof.Machine
end

section
/-! The working register at width 4, and the table step (spec/40_crc_engine.md R172 to R176, R190 to R192): a table of
the message's configuration gives what the bitwise algorithm gives. -/

namespace Sys2Proof.Machine

open Sys2Proof

/-! ### Width 4 -/

/-- Settles O18: a number whose low nibble is 0 is its upper part shifted back up. -/
theorem narrowRegisterLowNibble : Obligations.NarrowRegisterLowNibble := by
  intro r P b _ _ _
  have hlow := crcByte4_mod16 r b P
  refine ⟨hlow, ?_⟩
  rw [crcOut, if_pos rfl, Nat.shiftRight_eq_div_pow, Nat.shiftLeft_eq]
  omega

/-! ### The table step -/

/-- A number from its bits above the low k and its low k. -/
theorem shiftRight_shiftLeft_xor_mod (x k : Nat) : (x >>> k) <<< k ^^^ x % 2 ^ k = x := by
  have hlow := Nat.mod_lt x (Nat.two_pow_pos k)
  rw [← shiftLeft_or_eq_xor hlow, ← Nat.shiftLeft_add_eq_or_of_lt hlow, Nat.shiftLeft_eq, Nat.shiftRight_eq_div_pow,
    Nat.mul_comm, Nat.div_add_mod]

/-- A message byte in one go: the register's leading byte XOR the message byte leaves its CRC, the other bits move up
(40_crc_engine R190, R192). -/
theorem crcByteWide_eq_xor {W P r : Nat} {b : Byte} (hW : 8 ≤ W) (hr : r < 2 ^ W) :
    crcByteWide r b W P =
      (r <<< 8) % 2 ^ W ^^^ polyMod W P (((r >>> (W - 8)) ^^^ b.toNat) <<< W) := by
  obtain ⟨k, rfl⟩ : ∃ k, W = k + 7 + 1 := ⟨W - 8, by omega⟩
  have hk : k + 7 + 1 - 8 = k := by omega
  rw [hk]
  have hbyte : b.toNat <<< k < 2 ^ (k + 7 + 1) := by
    rw [Nat.shiftLeft_eq, Nat.add_assoc, Nat.add_comm k, Nat.pow_add]
    exact Nat.mul_lt_mul_of_pos_right b.isLt (Nat.two_pow_pos k)
  have hlow : (r % 2 ^ k) <<< 8 = (r <<< 8) % 2 ^ (k + 7 + 1) := by
    rw [Nat.shiftLeft_eq, Nat.shiftLeft_eq, Nat.add_assoc, Nat.pow_add, Nat.mul_mod_mul_right]
  have hlowlt : (r % 2 ^ k) <<< 8 < 2 ^ (k + 7 + 1) := hlow ▸ Nat.mod_lt _ (Nat.two_pow_pos _)
  have hsplit : (r ^^^ b.toNat <<< k) <<< 8 = (r % 2 ^ k) <<< 8 ^^^ ((r >>> k) ^^^ b.toNat) <<< (k + 7 + 1) := by
    conv_lhs => rw [← shiftRight_shiftLeft_xor_mod r k]
    simp only [Nat.shiftLeft_xor_distrib, ← Nat.shiftLeft_add]
    rw [Nat.xor_comm (r >>> k <<< _), Nat.xor_assoc]
  calc crcByteWide r b (k + 7 + 1) P
      = polyMod (k + 7 + 1) P ((r ^^^ b.toNat <<< k) <<< 8) := by
        rw [polyMod_shiftLeft, polyMod_of_lt (Nat.xor_lt_two_pow hr hbyte), crcByteWide, hk]
    _ = (r <<< 8) % 2 ^ (k + 7 + 1) ^^^ polyMod (k + 7 + 1) P (((r >>> k) ^^^ b.toNat) <<< (k + 7 + 1)) := by
        rw [hsplit, polyMod_xor, polyMod_of_lt hlowlt, hlow]

theorem crcBits_singleton_lt {W P : Nat} (hW : 8 ≤ W) (hP : P < 2 ^ W) (b : Byte) : crcBits [b] W P < 2 ^ W := by
  have hne : W ≠ 4 := by omega
  simp only [crcBits, crcOut, crcByte, if_neg hne, List.foldl]
  exact crcByteWide_lt hP 0 b

/-- The table step with the table of (W, P) is the bitwise step (R192): its index is the leading byte of
`crcByteWide_eq_xor`, its entry the CRC of that byte. -/
theorem crcTblStep_eq_crcByteWide {W P r : Nat} {b : Byte} {T : Nat → Nat} (hW : 8 ≤ W) (hW' : W ≤ 32) (hP : P < 2 ^ W)
    (hr : r < 2 ^ W) (hT : ∀ i : Byte, T i.toNat = crcBits [i] W P) : crcTblStep r b W T = crcByteWide r b W P := by
  have hhigh : r >>> (W - 8) ^^^ b.toNat < 2 ^ 8 := by
    refine Nat.xor_lt_two_pow ?_ b.isLt
    rw [Nat.shiftRight_eq_div_pow]
    refine Nat.div_lt_of_lt_mul ?_
    rwa [← Nat.pow_add, Nat.sub_add_cancel hW]
  have hindex : (r >>> (W - 8) ^^^ b.toNat) &&& 0xFF = (BitVec.ofNat 8 (r >>> (W - 8) ^^^ b.toNat)).toNat := by
    rw [BitVec.toNat_ofNat]
    exact Nat.and_two_pow_sub_one_eq_mod _ 8
  have hentry : crcBits [BitVec.ofNat 8 (r >>> (W - 8) ^^^ b.toNat)] W P =
      polyMod W P ((r >>> (W - 8) ^^^ b.toNat) <<< W) := by
    rw [crcBits_eq_polyMod ((cfgLegal_iff W P).2 ⟨.inr ⟨hW, hW'⟩, hP⟩)]
    simp only [beValue, List.foldl, Nat.zero_shiftLeft, Nat.zero_or, BitVec.toNat_ofNat, Nat.mod_eq_of_lt hhigh]
  rw [crcTblStep, hindex, hT, Nat.and_xor_distrib_right, and_mask, and_mask,
    Nat.mod_eq_of_lt (crcBits_singleton_lt hW hP _), hentry, crcByteWide_eq_xor hW hr]

/-! ### A mixed message -/

/-- The instruction that feeds a message byte, by the table where the flag says so. -/
def feedByte (p : Bool × Byte) : Instr := if p.1 then .crcUpdTbl p.2 else .crcUpdBit p.2

/-- The stored table is the one of the current message's configuration, which has a table. -/
structure TableOfMessage (s : State) : Prop where
  wide : s.curWidth ≠ 4
  tag : tagMatches s = true
  filled : tableFilled s s.curWidth.toNat s.curPoly.toNat Config.fscore.tblEntries

/-- With the message's own table both updates take `crc_reg` to one value (R192). -/
theorem TableOfMessage.crcRegTbl_eq {s : State} (ht : TableOfMessage s) (hs : EngineInv s) (b : Byte) :
    crcRegTbl s b = crcRegBit s b := by
  obtain ⟨hwidth, -⟩ := (cfgLegal_toNat_iff _ _).1 hs.legal
  obtain ⟨hW, hW'⟩ := hwidth.resolve_left ht.wide
  have hentry : ∀ i : Byte, (tableEntry s i.toNat).toNat = crcBits [i] s.curWidth.toNat s.curPoly.toNat := by
    intro i
    have hi : i.toNat < Config.fscore.tblEntries := i.isLt
    rw [ht.filled _ hi, tableValue, BitVec.ofNat_toNat, BitVec.setWidth_eq,
      hs.toNat_ofNat (crcBits_singleton_lt hW hs.poly_lt i)]
  rw [hs.crcRegTbl_eq ht.wide, hs.crcRegBit_eq, if_neg ht.wide,
    crcTblStep_eq_crcByteWide hW hW' hs.poly_lt (hs.wide ht.wide) hentry]

/-- By either update a message byte takes `crc_reg` on as CRC_UPD_BIT does. -/
theorem exec_feedByte {s : State} (hidle : s.seq = .idle) (hs : EngineInv s) (ht : TableOfMessage s) (p : Bool × Byte) :
    ∃ w, exec (feedByte p) s = .next { s with
      cmd := w, done := true, err := .ok, bus := .done, crcReg := crcRegBit s p.2 } := by
  obtain ⟨byTable, b⟩ := p
  cases byTable with
  | false => exact ⟨_, exec_crcUpdBit_idle hidle b⟩
  | true =>
    refine ⟨commandWord .crcUpdTbl b, ?_⟩
    rw [← ht.crcRegTbl_eq hs]
    exact exec_finishes hidle rfl (ruleCrcUpdTbl_ownTag (s := accept _ (answer .done s)) ht.wide ht.tag b) hidle

/-- Message bytes fed by any mix of updates take `crc_reg` on through the bytes, as `runInstrs_crcUpdBit` says of
CRC_UPD_BIT alone. -/
theorem runInstrs_feedByte (M : List (Bool × Byte)) :
    ∀ {s : State}, s.seq = .idle → EngineInv s → TableOfMessage s →
      ∃ t, runInstrs (M.map feedByte) s = some t ∧ t.curWidth = s.curWidth ∧
        t.crcReg.toNat =
          (M.map Prod.snd).foldl (fun r b => crcByte r b s.curWidth.toNat s.curPoly.toNat) s.crcReg.toNat := by
  induction M with
  | nil => exact fun {s} _ _ _ => ⟨s, rfl, rfl, rfl⟩
  | cons p M ih =>
    intro s hidle hs ht
    obtain ⟨w, hexec⟩ := exec_feedByte hidle hs ht p
    obtain ⟨t, hrun, hW, hreg⟩ := ih (s := { s with
      cmd := w, done := true, err := .ok, bus := .done, crcReg := crcRegBit s p.2 }) hidle
      ((engineInv_crcRegBit hs p.2).congr rfl rfl rfl) ⟨ht.wide, ht.tag, ht.filled⟩
    refine ⟨t, ?_, hW, ?_⟩
    · rw [List.map_cons, runInstrs, hexec]
      exact hrun
    · rw [hreg, List.map_cons, List.foldl_cons, ← hs.crcRegBit_toNat]

/-- Settles O20: a valid table is the message's by TableInv, and both ways of feeding end in the same fold over the
bytes. -/
theorem tableModeEqualsBitwise : Obligations.TableModeEqualsBitwise := by
  refine ⟨fun _ _ _ _ _ hW hW' hP hr hT => crcTblStep_eq_crcByteWide hW hW' hP hr hT, ?mixed⟩
  case mixed =>
    intro s M hidle hs htable hwide htag
    obtain ⟨hvalid, hW, hP⟩ := htag
    obtain ⟨-, hfilled⟩ := htable.valid hvalid
    rw [hW, hP] at hfilled
    obtain ⟨t, ht, htW, htreg⟩ :=
      runInstrs_feedByte M hidle hs ⟨hwide, (tagMatches_iff s).2 ⟨hvalid, hW, hP⟩, hfilled⟩
    obtain ⟨u, hu, -, huW, hureg⟩ := runInstrs_crcUpdBit (M.map Prod.snd) hidle hs
    rw [List.map_map] at hu
    have hreg : t.crcReg = u.crcReg := BitVec.eq_of_toNat_eq (htreg.trans hureg.symm)
    refine ⟨t, u, ht, hu, hreg, ?_⟩
    rw [regValue, regValue, crcResult, crcResult, hreg, htW, huW]

end Sys2Proof.Machine
end

section
/-! The header check in numbers, and a search without a budget (spec/41_frame_sync.md R231, R232, R237, R238;
spec/00_scope.md R8). -/

namespace Sys2Proof.Machine

open Sys2Proof

/-! ### Valid headers -/

/-- Under GENERATOR the valid CHK is the register CRC-4 of the marker and SEQ (R237), by the agreement of the long
division with the register. -/
theorem hdrCheckWith_generator_iff (h : Byte) :
    hdrCheckWith .generator h = true ↔ h.toNat % 16 = crcBits [0x0A, 0xA0 ||| (h >>> 4)] 4 0x9 := by
  have hchk : (h.extractLsb' 0 4).toNat = h.toNat % 16 := by simp
  have hpayload : 0xAA <<< 4 ||| (h.extractLsb' 4 4).toNat = beValue [0x0A, 0xA0 ||| (h >>> 4)] := by
    revert h; decide
  obtain ⟨-, hpass⟩ :=
    longDivisionAgreesWithCrc [0x0A, 0xA0 ||| (h >>> 4)] (h.toNat % 16) 4 0x9 (by decide) (Nat.mod_lt _ (by decide))
  rw [← hpass, ← hpayload, ← hchk]
  rfl

/-- The first row of R237's table, checked byte by byte. -/
theorem hdrCheckWith_generator_iff_mem : ∀ h : Byte, hdrCheckWith .generator h = true ↔
    h ∈ [0x0F, 0x16, 0x24, 0x3D, 0x40, 0x59, 0x6B, 0x72, 0x88, 0x91, 0xA3, 0xBA, 0xC7, 0xDE, 0xEC, 0xF5] := by
  decide

/-- The second row of R237's table, checked byte by byte. -/
theorem hdrCheckWith_literal_iff_mem : ∀ h : Byte, hdrCheckWith .literal h = true ↔
    h ∈ [0x06, 0x14, 0x22, 0x30, 0x4E, 0x5C, 0x6A, 0x78, 0x84, 0x96, 0xA0, 0xB2, 0xCC, 0xDE, 0xE8, 0xFA] := by
  decide

/-- Settles O23: the two rows of the table, and the register CRC-4 beside the first. -/
theorem validHeaderBytes : Obligations.ValidHeaderBytes := fun h =>
  ⟨hdrCheckWith_generator_iff_mem h, hdrCheckWith_literal_iff_mem h, hdrCheckWith_generator_iff h, rfl⟩

/-! ### A search without a budget -/

/-- A candidate read with the budget spent is not made (R232). -/
theorem searchStep_spent {r : SyncRun} (hpos : r.pos = .candidate) (hspent : r.budget ≤ r.reads) (s : State) :
    searchStep r s = searchTimeout r s := by
  rw [searchStep_candidate hpos, searchCandidate, if_neg (Nat.not_lt.2 hspent)]

/-- With SCAN_MAX = 0 a search times out in its first step (R238; log 2). -/
theorem searchStep_zeroBudget {s : State} (hzero : s.scanMax = 0) (t : State) :
    searchStep (searchBegin s) t = .ended .syncTimeout { t with hdr := { t.hdr with fails := 0, reads := 0 } } :=
  searchStep_spent rfl (Nat.le_of_eq (congrArg BitVec.toNat hzero)) t

theorem sequencerStep_ruleSync_zeroBudget {s : State} (hzero : s.scanMax = 0) :
    sequencerStep (ruleSync s) =
      finish .syncTimeout { s with syncState := .searching, hdr := { s.hdr with fails := 0, reads := 0 } } := by
  rw [sequencerStep_sync (ruleSync_seq s), syncStep, searchStep_zeroBudget hzero]
  rfl

theorem sequencerStep_ruleFrame_zeroBudget {s : State} (hzero : s.scanMax = 0) :
    sequencerStep (ruleFrame s) =
      finish .syncTimeout { s with syncState := .searching, hdr := { s.hdr with fails := 0, reads := 0 } } := by
  rw [sequencerStep_frame (p := .search (searchBegin s)) rfl, frameStep, searchStep_zeroBudget hzero]
  rfl

/-- Settles O25: the commands are accepted as any other, and their search ends before its first read. -/
theorem zeroBudgetTimesOut : Obligations.ZeroBudgetTimesOut := by
  intro s hidle hzero
  refine ⟨⟨_, exec_sync_idle hidle, ?sync⟩, ⟨_, exec_frame_idle hidle, ?frame⟩⟩
  case sync =>
    rw [sequencerStep_ruleSync_zeroBudget (s := accept _ (answer .done s)) hzero, finish, ← hidle]
    rfl
  case frame =>
    rw [sequencerStep_ruleFrame_zeroBudget (s := accept _ (answer .done s)) hzero, finish, ← hidle]
    rfl

end Sys2Proof.Machine
end

section
/-! Every command ends while the byte source answers (spec/70_reset_and_hazards.md R362; log 2). -/

namespace Sys2Proof.Machine

open Sys2Proof

/-! ### Enough answers -/

theorem scanFrom_candidate {r : SyncRun} (hpos : r.pos = .candidate) (old : HdrInfo) (l : List PortAnswer) :
    scanFrom r old l = scan r.budget old r.reads r.fails l := by
  simp only [scanFrom, hpos]

/-- With budget left a candidate read takes an answer, and the loop of `SyncCore` goes on with fewer left to take. -/
theorem scanFrom_candidate_cons {r : SyncRun} (hpos : r.pos = .candidate) (hlt : r.reads < r.budget) (old : HdrInfo)
    (a : PortAnswer) (l : List PortAnswer) :
    ∃ q : SyncRun, q.answersLeft < r.answersLeft ∧ scanFrom r old (a :: l) = scanFrom q old l := by
  obtain ⟨budget, reads, fails, pos⟩ := r
  obtain rfl : pos = .candidate := hpos
  have hlt : reads < budget := hlt
  by_cases ha : a = .byte Config.fscore.marker
  · subst ha
    refine ⟨⟨budget, reads + 1, fails, .header⟩, ?_, scan_marker hlt old fails l⟩
    simp only [SyncRun.answersLeft]
    omega
  · refine ⟨⟨budget, reads + 1, fails, .candidate⟩, ?_, scan_other hlt old fails ha l⟩
    simp only [SyncRun.answersLeft]
    omega

/-- A header read takes an answer, and ends the loop with a valid header or goes on with one less to take. -/
theorem scanFrom_header_cons {r : SyncRun} (hpos : r.pos = .header) (old : HdrInfo) (a : PortAnswer)
    (l : List PortAnswer) :
    (∃ e, scanFrom r old (a :: l) = some e ∧ e.port = l) ∨
      ∃ q : SyncRun, q.answersLeft < r.answersLeft ∧ scanFrom r old (a :: l) = scanFrom q old l := by
  obtain ⟨budget, reads, fails, pos⟩ := r
  obtain rfl : pos = .header := hpos
  have hfewer : SyncRun.answersLeft ⟨budget, reads, fails + 1, .candidate⟩ <
      SyncRun.answersLeft ⟨budget, reads, fails, .header⟩ := Nat.lt_succ_self _
  cases a with
  | timeout => exact .inr ⟨_, hfewer, rfl⟩
  | byte h =>
    cases hc : hdrCheck h with
    | true => exact .inl ⟨⟨.ok, foundInfo h fails reads, l⟩, if_pos hc, rfl⟩
    | false => exact .inr ⟨_, hfewer, if_neg (Bool.eq_false_iff.1 hc)⟩

/-- With as many answers as it can still take, the loop of `SyncCore` comes to its end and takes no more than these. -/
theorem scanFrom_of_answersLeft_le (old : HdrInfo) (l : List PortAnswer) :
    ∀ {r : SyncRun}, r.answersLeft ≤ l.length →
      ∃ e, scanFrom r old l = some e ∧ l.length ≤ r.answersLeft + e.port.length := by
  have spent : ∀ {r : SyncRun} (l : List PortAnswer), r.pos = .candidate → r.budget ≤ r.reads →
      ∃ e, scanFrom r old l = some e ∧ l.length ≤ r.answersLeft + e.port.length := by
    intro r l hpos hspent
    exact ⟨_, (scanFrom_candidate hpos old l).trans (scan_spent hspent old r.fails l), Nat.le_add_left _ _⟩
  induction l with
  | nil =>
    intro r h
    cases hpos : r.pos with
    | candidate =>
      rw [SyncRun.answersLeft_candidate hpos, List.length_nil] at h
      exact spent [] hpos (by omega)
    | header =>
      rw [SyncRun.answersLeft_header hpos] at h
      exact absurd h (Nat.not_succ_le_zero _)
  | cons a l ih =>
    intro r h
    rw [List.length_cons] at h ⊢
    have goes_on : ∀ {q : SyncRun}, q.answersLeft < r.answersLeft → scanFrom r old (a :: l) = scanFrom q old l →
        ∃ e, scanFrom r old (a :: l) = some e ∧ l.length + 1 ≤ r.answersLeft + e.port.length := by
      intro q hq hscan
      obtain ⟨e, he, hlen⟩ := ih (r := q) (by omega)
      exact ⟨e, hscan.trans he, by omega⟩
    cases hpos : r.pos with
    | candidate =>
      by_cases hlt : r.reads < r.budget
      · obtain ⟨q, hq, hscan⟩ := scanFrom_candidate_cons hpos hlt old a l
        exact goes_on hq hscan
      · exact spent (a :: l) hpos (Nat.not_lt.1 hlt)
    | header =>
      obtain ⟨e, he, hport⟩ | ⟨q, hq, hscan⟩ := scanFrom_header_cons hpos old a l
      · refine ⟨e, he, ?_⟩
        rw [hport, SyncRun.answersLeft_header hpos]
        omega
      · exact goes_on hq hscan

/-- With as many answers as it can still take, a search comes to its end and takes no more than these. -/
theorem searchRest_of_answersLeft_le {r : SyncRun} {s : State} (h : r.answersLeft ≤ s.port.length) :
    ∃ p, searchRest r s = some p ∧ s.port.length ≤ r.answersLeft + p.2.port.length := by
  obtain ⟨e, he, hlen⟩ := scanFrom_of_answersLeft_le s.hdr s.port h
  exact ⟨e.inState s, by rw [searchRest, he, Option.map_some], hlen⟩

/-- With an answer for each byte to read, `ReadBody` comes to its end. -/
theorem readBody_of_le (n : Nat) :
    ∀ {k : Nat} {s : State}, n ≤ s.port.length → ∃ p, readBody n k s = some p := by
  induction n with
  | zero => exact fun {_ s} _ => ⟨(.ok, s), rfl⟩
  | succ n ih =>
    intro k s h
    obtain ⟨hp, -⟩ | ⟨a, rest, hp, hr⟩ := portRead_cases s
    · rw [hp] at h
      exact absurd h (Nat.not_succ_le_zero n)
    · rw [hp, List.length_cons] at h
      rw [readBody, hr]
      cases a with
      | timeout => exact ⟨_, rfl⟩
      | byte b =>
        refine ih ?_
        rw [storeFbuf_port]
        exact Nat.le_of_succ_le_succ h

/-- A body with as many answers to take as it has bytes left comes to its end. -/
theorem decodeRest_of_bodyAnswersLeft_le {k : Nat} {s : State} (h : bodyAnswersLeft k ≤ s.port.length) :
    ∃ u, decodeRest k s = some u ∧ u.seq = .idle := by
  obtain ⟨p, hp⟩ := readBody_of_le _ h
  exact ⟨_, by rw [decodeRest, bodyRest, ← bodyAnswersLeft, hp, Option.map_some, Option.map_some], rfl⟩

/-- SYNC with as many answers as its search can take comes to its end. -/
theorem rest_sync_of_answersLeft_le {r : SyncRun} {s : State} (h : r.answersLeft ≤ s.port.length) :
    ∃ u, (Running.sync r).rest s = some u ∧ u.seq = .idle := by
  obtain ⟨p, hp, -⟩ := searchRest_of_answersLeft_le h
  exact ⟨_, by rw [Running.rest, hp, Option.map_some], rfl⟩

/-- DECODE or FRAME with an answer for each step it can take comes to its end. -/
theorem rest_of_stepsLeft_le {c : Running} {s : State} (hop : c.op = .decode ∨ c.op = .frame)
    (h : c.stepsLeft ≤ s.port.length) : ∃ u, c.rest s = some u ∧ u.seq = .idle := by
  cases c with
  | decode k => exact decodeRest_of_bodyAnswersLeft_le h
  | frame p =>
    cases p with
    | body k => exact decodeRest_of_bodyAnswersLeft_le h
    | search r =>
      have hboth : r.answersLeft + bodyAnswersLeft 0 ≤ s.port.length :=
        le_trans (Nat.add_le_add_right (Nat.le_max_right 1 _) _) h
      obtain ⟨p, hp, hlen⟩ := searchRest_of_answersLeft_le (r := r) (s := s) (by omega)
      rw [Running.rest, hp, Option.bind_some, afterSearch]
      split
      · exact decodeRest_of_bodyAnswersLeft_le (by omega)
      · exact ⟨_, rfl, rfl⟩
  | _ => simp [Running.op] at hop

/-! ### How long a sane command lasts -/

/-- The last entries of TBL_BUILD, from any of them on (R185; one entry a step, log 2). -/
theorem runSequencer_tblBuild_ends {W : BitVec 6} {P : Word} (n : Nat) :
    ∀ {s : State} {i : Nat}, s.seq = .run (.tblBuild W P i) → Config.fscore.tblEntries ≤ i + n + 1 →
      ∃ j, j ≤ n + 1 ∧ (runSequencer j s).seq = .idle := by
  induction n with
  | zero =>
    intro s i hseq hi
    obtain ⟨hlt, -⟩ | ⟨-, hstep⟩ := tblBuildStep_cases W P i s
    · omega
    · refine ⟨1, Nat.le_refl 1, ?_⟩
      rw [runSequencer_succ, runSequencer_zero, sequencerStep_tblBuild hseq, hstep]
      rfl
  | succ n ih =>
    intro s i hseq hi
    obtain ⟨-, hstep⟩ | ⟨-, hstep⟩ := tblBuildStep_cases W P i s
    · obtain ⟨j, hj, hidle⟩ := ih (start_seq (storeTable i (tableValue W.toNat P.toNat i) s) (.tblBuild W P (i + 1)))
        (by omega)
      refine ⟨j + 1, Nat.succ_le_succ hj, ?_⟩
      rw [runSequencer_succ, sequencerStep_tblBuild hseq, hstep, hidle]
    · refine ⟨1, Nat.le_add_left 1 _, ?_⟩
      rw [runSequencer_succ, runSequencer_zero, sequencerStep_tblBuild hseq, hstep]
      rfl

/-- A sane search takes at most two answers for each read of the largest budget (R232). -/
theorem searchSane.answersLeft_le {s : State} {r : SyncRun} (h : searchSane s r) : r.answersLeft ≤ 2 * 255 := by
  obtain ⟨-, hbudget, hreads, hpos⟩ := h
  have hmax := s.scanMax.isLt
  cases hp : r.pos <;> rw [hp] at hpos
  · rw [SyncRun.answersLeft_candidate hp]; omega
  · rw [SyncRun.answersLeft_header hp]; dsimp only at hpos; omega

/-- DECODE and FRAME take at most the answers of a search and of a body (R362). -/
theorem runningSane.stepsLeft_le {s : State} {c : Running} (h : runningSane s c) : c.stepsLeft ≤ 2 * 255 + 51 := by
  have hbody : ∀ k, bodyAnswersLeft k ≤ 51 := by
    intro k
    have hlen : Config.fscore.bodyLen = 51 := rfl
    rw [bodyAnswersLeft]
    omega
  cases c with
  | decode k => exact le_trans (hbody k) (by decide)
  | frame p =>
    cases p with
    | search r => exact Nat.add_le_add (max_le (by decide) (searchSane.answersLeft_le h)) (hbody 0)
    | body k => exact le_trans (hbody k) (by decide)
  | _ => exact Nat.zero_le _

/-- A sane DECODE or FRAME ends within 561 steps, one for each answer it can take. -/
theorem decode_or_frame_finishes {c : Running} {s : State} (hop : c.op = .decode ∨ c.op = .frame)
    (hseq : s.seq = .run c) (hsane : runningSane s c) (hport : 561 ≤ s.port.length) :
    ∃ n, n ≤ 561 ∧ (runSequencer n s).seq = .idle := by
  have hsteps := hsane.stepsLeft_le
  obtain ⟨u, hu, hidle⟩ := rest_of_stepsLeft_le (s := s) hop (by omega)
  obtain ⟨n, hn, rfl⟩ := runSequencer_commandRest hseq hop ((commandRest_of_run hseq).trans hu)
  exact ⟨n, by omega, hidle⟩

/-- Settles O59, by the running command: the table's last entries, the division's steps, or the answers of a search and
of a body. -/
theorem everyCommandFinishes : Obligations.EveryCommandFinishes := by
  intro s hs hport
  cases hseq : s.seq with
  | idle => exact ⟨0, Nat.zero_le _, hseq⟩
  | run c =>
    obtain ⟨-, -, hsane⟩ := hs.running c hseq
    cases c with
    | tblBuild W P i =>
      obtain ⟨n, hn, hidle⟩ := runSequencer_tblBuild_ends 255 hseq (Nat.le_add_left 256 i)
      exact ⟨n, by omega, hidle⟩
    | crcCheck W P w =>
      obtain ⟨hlegal, hw, -⟩ := hsane
      obtain ⟨hwidth, hP⟩ := (cfgLegal_iff _ _).1 hlegal
      obtain ⟨n, hn, hrun⟩ := runSequencer_crcCheck (by omega) hP 31 hseq hw
      exact ⟨n, by omega, hrun ▸ rfl⟩
    | sync r =>
      have hleft := searchSane.answersLeft_le hsane
      obtain ⟨u, hu, hidle⟩ := rest_sync_of_answersLeft_le (r := r) (s := s) (by omega)
      obtain ⟨n, hn, rfl⟩ := runSequencer_sync hseq ((commandRest_of_run hseq).trans hu)
      exact ⟨n, by omega, hidle⟩
    | decode k => exact decode_or_frame_finishes (.inl rfl) hseq hsane hport
    | frame p => exact decode_or_frame_finishes (.inr rfl) hseq hsane hport
    | decodeBuf => exact ⟨1, by decide, by rw [runSequencer_decodeBuf hseq]; rfl⟩

end Sys2Proof.Machine
end
